-- ==== Sys2Proof/Word.lean ====
section
/-! DEFINITION. The widths of B45E (00_scope.md R7): bytes in the buffers, 32-bit host registers and
data words, the 64-bit accumulator. All are unsigned (R9). -/
namespace Sys2Proof

/-- A byte of a buffer, or a character in its US-ASCII code (R7, R11). -/
abbrev Byte := BitVec 8

/-- A host register, a bus data word or a command word (R7). -/
abbrev Word := BitVec 32

/-- The accumulator's width (R7, R33). -/
abbrev Acc := BitVec 64

end Sys2Proof
end

