-- ==== Sys2Proof/Syntax.lean ====
section
/-! DEFINITION. The commands of B45E: one constructor for each row of spec/opcode_table.json
(30_encoding.md R72). -/
namespace Sys2Proof

/-- A command. The lookup commands carry their operand IMM, an unsigned number (R73, R75); the buffer
commands take only implicit operands (R75). -/
inductive Instr where
  | nop
  | enc45
  | dec45
  | encqr
  | decqr
  | d2c (imm : Nat)
  | c2d (imm : Nat)
  | b2d (imm : Nat)
  | d2b (imm : Nat)
deriving DecidableEq, Repr

/-- The classes of R72. -/
inductive CommandClass where
  | control
  | buffer
  | lookup
deriving DecidableEq, Repr

/-- The class of a command (R72). -/
def Instr.commandClass : Instr → CommandClass
  | .nop => .control
  | .enc45 => .buffer
  | .dec45 => .buffer
  | .encqr => .buffer
  | .decqr => .buffer
  | .d2c _ => .lookup
  | .c2d _ => .lookup
  | .b2d _ => .lookup
  | .d2b _ => .lookup

end Sys2Proof
end

