-- ==== Sys2Proof/WellFormed.lean ====
section
/-! DEFINITION. Which commands can be written down: the immediate of a lookup command lies in 0 to 65535
(30_encoding.md R73, R80). -/
namespace Sys2Proof

/-- IMM is 16 bits wide (R70, R80). -/
def immFits (imm : Nat) : Bool := decide (imm ≤ 65535)

/-- A command that has an encoding. -/
def Instr.wf : Instr → Bool
  | .nop => true
  | .enc45 => true
  | .dec45 => true
  | .encqr => true
  | .decqr => true
  | .d2c imm => immFits imm
  | .c2d imm => immFits imm
  | .b2d imm => immFits imm
  | .d2b imm => immFits imm

end Sys2Proof
end

