-- ==== Sys2Proof/Decode.lean ====
section
/-! DEFINITION. Decoding and encoding a command word (30_encoding.md R70 to R80). -/
namespace Sys2Proof

/-- OP = w[3:0] (R70). -/
def opField (w : Word) : Nat := w.toNat % 16

/-- RSV = w[15:4] (R70). -/
def rsvField (w : Word) : Nat := w.toNat / 16 % 4096

/-- IMM = w[31:16], unsigned (R70, R73). -/
def immField (w : Word) : Nat := w.toNat / 65536

/-- Why a word is illegal (R76). -/
inductive DecodeReject where
  /-- OP is 0x9 to 0xF (R77). -/
  | reservedOp
  /-- RSV is not 0. -/
  | reservedBits
  /-- IMM is not 0 in NOP or a buffer command. -/
  | immNotZero
deriving DecidableEq, Repr

/-- The two answers of R76. -/
inductive Decoded where
  | legal (i : Instr)
  | illegal (why : DecodeReject)
deriving DecidableEq, Repr

/-- A command whose IMM must be 0 (R76). -/
def decodeNoImm (imm : Nat) (i : Instr) : Decoded :=
  if imm = 0 then .legal i else .illegal .immNotZero

/-- The command of an OP value whose RSV is 0 (R72, R76). -/
def decodeOp (op imm : Nat) : Decoded :=
  match op with
  | 0 => decodeNoImm imm .nop
  | 1 => decodeNoImm imm .enc45
  | 2 => decodeNoImm imm .dec45
  | 3 => decodeNoImm imm .encqr
  | 4 => decodeNoImm imm .decqr
  | 5 => .legal (.d2c imm)
  | 6 => .legal (.c2d imm)
  | 7 => .legal (.b2d imm)
  | 8 => .legal (.d2b imm)
  | _ => .illegal .reservedOp

/-- R76, total on every 32-bit word. -/
def decode (w : Word) : Decoded :=
  if 9 ≤ opField w then .illegal .reservedOp
  else if rsvField w ≠ 0 then .illegal .reservedBits
  else decodeOp (opField w) (immField w)

/-- OP of each command (R72). -/
def opcodeOf : Instr → Nat
  | .nop => 0
  | .enc45 => 1
  | .dec45 => 2
  | .encqr => 3
  | .decqr => 4
  | .d2c _ => 5
  | .c2d _ => 6
  | .b2d _ => 7
  | .d2b _ => 8

/-- IMM of each command: 0 where it takes no immediate (R70). -/
def immOf : Instr → Nat
  | .nop => 0
  | .enc45 => 0
  | .dec45 => 0
  | .encqr => 0
  | .decqr => 0
  | .d2c imm => imm
  | .c2d imm => imm
  | .b2d imm => imm
  | .d2b imm => imm

/-- `(imm << 16) | OP` (R80). -/
def encode (i : Instr) : Word := BitVec.ofNat 32 (immOf i * 65536 + opcodeOf i)

/-- A row of R74's table. -/
structure TableRow where
  mnemonic : String
  pattern  : Word
  mask     : Word
deriving DecidableEq, Repr

/-- `(w & mask) == match` (R74). -/
def TableRow.fits (r : TableRow) (w : Word) : Bool := w &&& r.mask == r.pattern

/-- R74: the exact match and mask of every legal command. -/
def opcodeTable : List TableRow :=
  [⟨"NOP", 0x00000000, 0xFFFFFFFF⟩, ⟨"ENC45", 0x00000001, 0xFFFFFFFF⟩, ⟨"DEC45", 0x00000002, 0xFFFFFFFF⟩,
   ⟨"ENCQR", 0x00000003, 0xFFFFFFFF⟩, ⟨"DECQR", 0x00000004, 0xFFFFFFFF⟩] ++
  [⟨"D2C", 0x00000005, 0x0000FFFF⟩, ⟨"C2D", 0x00000006, 0x0000FFFF⟩, ⟨"B2D", 0x00000007, 0x0000FFFF⟩,
   ⟨"D2B", 0x00000008, 0x0000FFFF⟩]

/-- The mnemonic of a command (R72). -/
def mnemonicOf : Instr → String
  | .nop => "NOP"
  | .enc45 => "ENC45"
  | .dec45 => "DEC45"
  | .encqr => "ENCQR"
  | .decqr => "DECQR"
  | .d2c _ => "D2C"
  | .c2d _ => "C2D"
  | .b2d _ => "B2D"
  | .d2b _ => "D2B"

/-- The word the opcode table numbers by the low `nbits` bits of `w`, every bit above them 0. -/
def tableWord (nbits w : Nat) : Word := BitVec.ofNat 32 (w % 2 ^ nbits)

/-- The command the decoder reads from a table word; a command is exactly one 32-bit word (R71). -/
def decodeTableWord (nbits w : Nat) : Option Instr :=
  match decode (tableWord nbits w) with
  | .legal i => some i
  | .illegal _ => none

end Sys2Proof
end

