-- ==== Sys2Proof/Config.lean ====
section
/-! DEFINITION. What one implementation fixes (00_scope.md R6, R8; 10_state.md R28) and the free values,
the values the spec leaves unspecified. A free value is a constant with no body: nothing can be proved
about which value it is. -/
namespace Sys2Proof.Config

/-- A buffer capacity (R8): a multiple of 4 from 4 to 65536, as its number of 32-bit words less one. -/
structure BufSize where
  wordsLessOne : Fin 16384
deriving DecidableEq, Repr

/-- The capacity in bytes. -/
def BufSize.bytes (z : BufSize) : Nat := 4 * (z.wordsLessOne.val + 1)

/-- The open parameter `IBUF_SIZE` of R8, less one and in words (log 9). -/
opaque ibufWordsLessOne : Fin 16384
/-- The open parameter `OBUF_SIZE` of R8, less one and in words (log 9). -/
opaque obufWordsLessOne : Fin 16384

/-- `IBUF_SIZE` (R8). -/
def ibufSize : BufSize := ⟨ibufWordsLessOne⟩
/-- `OBUF_SIZE` (R8). -/
def obufSize : BufSize := ⟨obufWordsLessOne⟩

/-- The suggested capacity of R8, 16384 bytes; no rule rests on it. -/
def suggestedSize : BufSize := ⟨4095⟩

/-- Which 2^18-byte block of the host's address space the platform gave B45E (R8; log 13). -/
opaque blockIndex : Nat

/-- The open parameter `BLOCK_BASE` (R8): 2^18-byte aligned. -/
def blockBase : Nat := 2 ^ 18 * blockIndex

/-- The platform's address decoding (20_memory.md R50, R60): the block-local offset of a host address,
none if the address is outside the block. -/
def blockOffset (address : Nat) : Option (BitVec 18) :=
  if blockBase ≤ address ∧ address < blockBase + 2 ^ 18 then
    some (BitVec.ofNat 18 (address - blockBase))
  else none

/-- `ALPHABET_SIZE` (R6). -/
abbrev alphabetSize : Nat := 45
/-- `DIGIT_MAX` (R6). -/
abbrev digitMax : Nat := 44
/-- `CHUNK_BYTES` (R6). -/
abbrev chunkBytes : Nat := 7
/-- `NUM_DIGITS_PER_FULL_CHUNK` (R6). -/
abbrev chunkDigits : Nat := 11
/-- `TRIPLET_MAX` (R6). -/
abbrev tripletMax : Nat := 65535
/-- `REV_TABLE_SIZE` (R6). -/
abbrev revTableSize : Nat := 256

/-- The read-only register ID (10_state.md R28). -/
def idWord : Word := 0x070B072D#32

/-- Free value: IBUF byte `i` that the host has not written since the reset named by the first argument
(70_reset_and_hazards.md R221; log 1). -/
opaque unknownIbuf : Nat → Nat → Byte
/-- Free value: OBUF byte `i` after the reset or the buffer command's error named by the first argument
(R221, 60_exceptions.md R197; log 2). -/
opaque unknownObuf : Nat → Nat → Byte
/-- Free value: the word that a read of the OBUF window returns while BUSY = 1
(70_reset_and_hazards.md R232; log 3). -/
opaque busyObuf : Nat → Word

/-! The datapath between commands (10_state.md R33, R37; 93_implementation_defined.md U7; log 4). -/

/-- Free value: ACC between commands. -/
opaque freeAcc : Nat → Acc
/-- Free value: NB between commands. -/
opaque freeNb : Nat → BitVec 3
/-- Free value: ND between commands, 0 to 11 (R34). -/
opaque freeNd : Nat → Fin 12
/-- Free value: the entry of DIGBUF named by the second argument between commands, a digit 0 to 44 (R35). -/
opaque freeDigit : Nat → Nat → Fin 45
/-- Free value: the entry of LIFO named by the second argument between commands. -/
opaque freeLifoEntry : Nat → Nat → Byte
/-- Free value: the LIFO's depth between commands. -/
opaque freeLifoDepth : Nat → BitVec 3
/-- Free value: IN_POS between commands, before it is brought below its bound (R36). -/
opaque freeInPos : Nat → Nat
/-- Free value: OUT_POS between commands, before it is brought below its bound (R36). -/
opaque freeOutPos : Nat → Nat
/-- Free value: CUR between commands. -/
opaque freeCur : Nat → Word

end Sys2Proof.Config
end

