-- ==== Sys2Proof/Machine/State.lean ====
section
/-! DEFINITION. The state of B45E as plain data (10_state.md), the reasons a step can stop, and the state
right after reset (70_reset_and_hazards.md R220). -/
namespace Sys2Proof.Machine

open Config (BufSize)

/-- The error kinds a command can end with (60_exceptions.md R190). Codes 9 to 15 are never produced and
have no constructor. -/
inductive ErrKind where
  | invalidDigitValue
  | invalidCharacter
  | accumulatorOverflow
  | truncatedInput
  | invalidChunkLength
  | illegalCommand
  | inputLengthRange
  | outputOverflow
deriving DecidableEq, Repr

/-- What a checked lookup, a group or a pure function answers: `ok(out)` or `err(kind)` (00_scope.md R12). -/
inductive Res (α : Type) where
  | ok (out : α)
  | err (kind : ErrKind)
deriving DecidableEq, Repr

/-- Why the machine is stuck. -/
inductive Fault where
  /-- A host access at the head of the bus while reset is asserted: the host has no step
  (70_reset_and_hazards.md R223; 93_implementation_defined.md U12). Raised by `applyInput`. Safe. -/
  | accessDuringReset
deriving DecidableEq, Repr

/-- Why an instruction has no meaning. -/
inductive Refusal where
  /-- The command has no meaning yet. Raised by an arm of `exec` only; no arm raises it now. Safe. -/
  | notModelled (mnemonic : String)
deriving DecidableEq, Repr

/-- STATUS (10_state.md R24), its five fields; the reserved bits read 0 (R30). -/
structure Status where
  busy    : Bool
  done    : Bool
  err     : Bool
  dropped : Bool
  errcode : BitVec 4
deriving DecidableEq, Repr

/-- The engine's internal registers (10_state.md R33 to R36). -/
structure Datapath where
  /-- ACC (R33). -/
  acc       : Acc
  /-- NB, the bytes of the current chunk (R34). -/
  nb        : BitVec 3
  /-- ND, the digits of the current chunk and DIGBUF's fill count (R34, R35). -/
  nd        : BitVec 4
  /-- DIGBUF (R35). -/
  digbuf    : Vector (BitVec 6) 11
  /-- LIFO's entries (R35). -/
  lifo      : Vector Byte 7
  /-- LIFO's depth, 0 to 7 (R35). -/
  lifoDepth : BitVec 3
  /-- IN_POS, the next input byte (R36). -/
  inPos     : BitVec 17
  /-- OUT_POS, the next output byte (R36). -/
  outPos    : BitVec 17
  /-- CUR, the command word latched at acceptance (R36). -/
  cur       : Word
deriving DecidableEq, Repr

/-- PHASE (R36). -/
inductive Phase where
  | idle
  | busy
deriving DecidableEq, Repr

/-- The size of a host access (20_memory.md R50, R52). -/
inductive AccessSize where
  | bits8
  | bits16
  | bits32
deriving DecidableEq, Repr

/-- A read, or a write with its data word (R50). -/
inductive AccessOp where
  | read
  | write (data : Word)
deriving DecidableEq, Repr

/-- A host access: a block-local byte offset below 2^18, a size, and what it does (R50). -/
structure Access where
  offset : BitVec 18
  size   : AccessSize
  op     : AccessOp
deriving DecidableEq, Repr

/-- The response codes of R50. -/
inductive BusCode where
  | ok
  | busErr
deriving DecidableEq, Repr

/-- A completed access: its code and, for a read, the data word (R50). -/
structure Response where
  code : BusCode
  data : Option Word
deriving DecidableEq, Repr

/-- What reaches the block from outside: a host access (R50) or a change of the reset line
(70_reset_and_hazards.md R220, R222). -/
inductive Input where
  | access (a : Access)
  | assertReset
  | releaseReset
deriving DecidableEq, Repr

/-- The two agents of 10_state.md R20. -/
inductive Agent where
  | host
  | engine
deriving DecidableEq, Repr

/-- A buffer's known bytes, as address and byte pairs (10_state.md R46, R47). A byte not listed has no known
value; what it holds is a free value (logs 1 and 2). -/
abbrev Memory := List Host.Cell

/-- The state of the machine. -/
structure State where
  /-- CMD (R23). -/
  cmd       : Word
  /-- STATUS (R24). -/
  status    : Status
  /-- IN_LEN (R25). -/
  inLen     : Word
  /-- OUT_LEN (R26). -/
  outLen    : Word
  /-- RESULT (R27). -/
  result    : Word
  /-- IBUF_SZ, the parameter `IBUF_SIZE` (R29; log 9). -/
  ibufSz    : BufSize
  /-- OBUF_SZ, the parameter `OBUF_SIZE` (R29; log 9). -/
  obufSz    : BufSize
  /-- IBUF (R46). -/
  ibuf      : Memory
  /-- OBUF (R47). -/
  obuf      : Memory
  /-- The datapath (R33 to R36). -/
  dp        : Datapath
  /-- Is reset asserted (70_reset_and_hazards.md R220)? -/
  resetLine : Bool
  /-- The inputs not yet taken, in issue order (20_memory.md R50; log 8). -/
  pending   : List Input
  /-- Who moves at each step while BUSY (70_reset_and_hazards.md R228; log 7). -/
  schedule  : List Agent
  /-- The responses given, oldest first (20_memory.md R50; log 12). -/
  responses : List Response
  /-- The model's own: names the values of IBUF's unknown bytes (logs 1 and 20). -/
  ibufEpoch : Nat
  /-- The model's own: names the values of OBUF's unknown bytes (logs 2 and 20). -/
  obufEpoch : Nat
  /-- The model's own: the next draw of free values (log 20). -/
  draws     : Nat
deriving DecidableEq, Repr

/-- STATUS after reset (R220). -/
def Status.reset : Status :=
  { busy := false, done := false, err := false, dropped := false, errcode := 0 }

/-- The datapath after reset: the spec gives no value (10_state.md R37), the model names zero (log 5). -/
def Datapath.reset : Datapath :=
  { acc := 0, nb := 0, nd := 0, digbuf := Vector.replicate 11 0, lifo := Vector.replicate 7 0,
    lifoDepth := 0, inPos := 0, outPos := 0, cur := 0 }

/-- The machine right after reset (R220): registers at their reset values, no buffer byte known (R221),
reset released, no access pending. -/
def State.reset : State :=
  { cmd := 0, status := Status.reset, inLen := 0, outLen := 0, result := 0,
    ibufSz := Config.ibufSize, obufSz := Config.obufSize, ibuf := [], obuf := [],
    dp := Datapath.reset, resetLine := false, pending := [], schedule := [], responses := [],
    ibufEpoch := 0, obufEpoch := 0, draws := 1 }

end Sys2Proof.Machine
end

