-- ==== Sys2Proof/Machine/Flags.lean ====
section
/-! DEFINITION. The flags: STATUS's four bits and ERRCODE, their word, and the events that write them
(10_state.md R24, R32). -/
namespace Sys2Proof.Machine

/-- The ERRCODE value of an error kind (60_exceptions.md R190). -/
def ErrKind.code : ErrKind → BitVec 4
  | .invalidDigitValue => 1
  | .invalidCharacter => 2
  | .accumulatorOverflow => 3
  | .truncatedInput => 4
  | .invalidChunkLength => 5
  | .illegalCommand => 6
  | .inputLengthRange => 7
  | .outputOverflow => 8

/-- A flag as the number of its bit. -/
def flagBit (b : Bool) (weight : Nat) : Nat := if b then weight else 0

/-- STATUS as the host reads it: BUSY bit 0, DONE bit 1, ERR bit 2, DROPPED bit 3, ERRCODE bits 11:8,
every other bit 0 (R24, R30). -/
def Status.word (f : Status) : Word :=
  BitVec.ofNat 32 (flagBit f.busy 1 + flagBit f.done 2 + flagBit f.err 4 + flagBit f.dropped 8 +
    f.errcode.toNat * 256)

/-- Command acceptance sets BUSY and clears the rest (R32, 40_control.md R90). -/
def Status.accepted (_ : Status) : Status :=
  { busy := true, done := false, err := false, dropped := false, errcode := 0 }

/-- Successful completion clears BUSY and sets DONE (R32, 40_control.md R94). -/
def Status.completed (f : Status) : Status := { f with busy := false, done := true }

/-- Error termination clears BUSY and DONE, sets ERR and writes ERRCODE; DROPPED keeps its value
(R32, 60_exceptions.md R196). -/
def Status.failed (f : Status) (k : ErrKind) : Status :=
  { f with busy := false, done := false, err := true, errcode := k.code }

/-- A dropped write sets DROPPED (R32, 70_reset_and_hazards.md R230). -/
def Status.droppedWrite (f : Status) : Status := { f with dropped := true }

/-- PHASE, equal to STATUS.BUSY (R36; log 16). -/
def State.phase (s : State) : Phase := if s.status.busy then .busy else .idle

end Sys2Proof.Machine
end

