-- ==== Sys2Proof/Machine/Ops.lean ====
section
/-! DEFINITION. The operations every command shares: the results of pure functions, the buffers' bytes,
acceptance, output emission, completion and error termination (40_control.md R90 to R94,
60_exceptions.md R196, R197). -/
namespace Sys2Proof.Machine

/-- The statement after another; `raise` in the first ends both (00_scope.md R12). -/
def Res.bind {α β : Type} (r : Res α) (f : α → Res β) : Res β :=
  match r with
  | .ok out => f out
  | .err kind => .err kind

/-! The buffers' bytes. -/

/-- The known byte at an address, if there is one. -/
def Memory.read : Memory → Nat → Option Byte
  | [], _ => none
  | (c, v) :: rest, a => if a = c then some v else Memory.read rest a

/-- Stores a byte, keeping the addresses strictly rising. -/
def Memory.write : Memory → Nat → Byte → Memory
  | [], a, b => [(a, b)]
  | (c, v) :: rest, a, b =>
    if a < c then (a, b) :: (c, v) :: rest
    else if a = c then (a, b) :: rest
    else (c, v) :: Memory.write rest a b

/-- The addresses are strictly rising and none is below `low`. -/
def Memory.risesFrom : Nat → Memory → Bool
  | _, [] => true
  | low, (c, _) :: rest => decide (low ≤ c) && Memory.risesFrom (c + 1) rest

/-- The canonical form: strictly rising addresses. An unlisted address has no known value, so no entry can
equal what an unlisted address holds. -/
def Memory.wf (m : Memory) : Bool := Memory.risesFrom 0 m

/-- Every listed address lies inside a buffer of `size` bytes. -/
def Memory.within (size : Nat) (m : Memory) : Bool := m.all fun cell => decide (cell.1 < size)

/-- `IBUF[i]` (00_scope.md R12): the byte last written there, else a free value
(70_reset_and_hazards.md R221; log 1). -/
def State.ibufAt (s : State) (i : Nat) : Byte :=
  (Memory.read s.ibuf i).getD (Config.unknownIbuf s.ibufEpoch i)

/-- `OBUF[i]` (10_state.md R47): the byte the engine wrote there, else a free value (R221,
60_exceptions.md R197; log 2). -/
def State.obufAt (s : State) (i : Nat) : Byte :=
  (Memory.read s.obuf i).getD (Config.unknownObuf s.obufEpoch i)

/-! The lifecycle of a command. -/

/-- Acceptance of the word `w` written to CMD while BUSY = 0 (40_control.md R90). It is also the only return
from an error: it clears ERR and ERRCODE (60_exceptions.md R199). -/
def State.accept (w : Word) (s : State) : State :=
  { s with
    cmd := w, status := s.status.accepted, outLen := 0, result := 0,
    dp := { s.dp with cur := w, inPos := 0, outPos := 0 } }

/-- A free number brought into 0 to `bound`. -/
def atMost (bound free : Nat) : Nat := free % (bound + 1)

/-- The datapath's values between commands are unspecified (10_state.md R33, R37,
93_implementation_defined.md U7; log 4), within the ranges that R34 to R36 give them. -/
def Datapath.unspecified (draw inLen obufBytes : Nat) : Datapath :=
  { acc := Config.freeAcc draw, nb := Config.freeNb draw, nd := BitVec.ofNat 4 (Config.freeNd draw).val,
    digbuf := Vector.ofFn fun k => BitVec.ofNat 6 (Config.freeDigit draw k.val).val,
    lifo := Vector.ofFn fun k => Config.freeLifoEntry draw k.val,
    lifoDepth := Config.freeLifoDepth draw,
    inPos := BitVec.ofNat 17 (atMost inLen (Config.freeInPos draw)),
    outPos := BitVec.ofNat 17 (atMost obufBytes (Config.freeOutPos draw)), cur := Config.freeCur draw }

/-- The end of a command, for the datapath: fresh free values. -/
def State.release (s : State) : State :=
  { s with
    dp := Datapath.unspecified s.draws s.inLen.toNat s.obufSz.bytes, draws := s.draws + 1 }

/-- Successful completion, what every class shares (40_control.md R94). -/
def State.complete (s : State) : State :=
  State.release { s with status := s.status.completed }

/-- Successful completion of a lookup command: `RESULT <- zext_32(v)` (R94). -/
def State.completeLookup (v : Byte) (s : State) : State :=
  State.complete { s with result := v.setWidth 32 }

/-- Successful completion of a buffer command: `OUT_LEN <- OUT_POS` (R94). -/
def State.completeBuffer (s : State) : State :=
  State.complete { s with outLen := s.dp.outPos.setWidth 32 }

/-- Error termination, `raise K` (60_exceptions.md R196). -/
def State.raise (k : ErrKind) (s : State) : State :=
  State.release { s with status := s.status.failed k, outLen := 0, result := 0 }

/-- Every OBUF byte takes an unspecified value (R197; log 2). -/
def State.forgetObuf (s : State) : State := { s with obuf := [], obufEpoch := s.draws }

/-- Error termination of a buffer command: R196, and R197 for OBUF. -/
def State.raiseBuffer (k : ErrKind) (s : State) : State := State.raise k s.forgetObuf

/-! Output emission (40_control.md R93). -/

/-- `OBUF[OUT_POS] <- v; OUT_POS <- OUT_POS + 1`. -/
def State.emit (v : Byte) (s : State) : State :=
  { s with
    obuf := Memory.write s.obuf s.dp.outPos.toNat v,
    dp := { s.dp with outPos := s.dp.outPos + 1 } }

/-- The loop of `emit_group`, in list order. -/
def State.emitAll : List Byte → State → State
  | [], s => s
  | v :: rest, s => State.emitAll rest (s.emit v)

/-- `emit_group(s)`: the whole group fits or nothing of it is written (R93). -/
def State.emitGroup (group : List Byte) (s : State) : Res State :=
  if s.dp.outPos.toNat + group.length ≤ s.obufSz.bytes then .ok (s.emitAll group)
  else .err .outputOverflow

/-! The shared run of a command. -/

/-- A lookup command ends with its value or its error (R94, R196). -/
def lookup (answer : Res Byte) (s : State) : Host.Outcome State Fault Refusal :=
  match answer with
  | .ok v => .next (s.completeLookup v)
  | .err k => .next (s.raise k)

/-- The loop over groups or chunks, until the input is exhausted or the first error (40_control.md R98).
The bound is the input's length: each pass consumes at least one byte (R92). -/
def groupLoop (group : State → Res State) : Nat → State → Res State
  | 0, s => .ok s
  | bound + 1, s =>
    if s.dp.inPos.toNat < s.inLen.toNat then (group s).bind (groupLoop group bound) else .ok s

/-- A buffer command: the prologue's range check (R91), the groups, then completion or error termination.
On an error everything the groups had written (OBUF, the datapath) is unspecified (R197, R37), so the
termination starts from the state at acceptance. -/
def runBuffer (group : State → Res State) (s : State) : Host.Outcome State Fault Refusal :=
  if s.ibufSz.bytes < s.inLen.toNat then .next (s.raiseBuffer .inputLengthRange)
  else
    match groupLoop group s.inLen.toNat s with
    | .ok t => .next t.completeBuffer
    | .err k => .next (s.raiseBuffer k)

/-! Turns and inputs (logs 7 and 8). -/

/-- A turn of the schedule is used up. -/
def State.takeTurn (s : State) : State := { s with schedule := s.schedule.tail }

/-- The block answers the access it performed (20_memory.md R50). -/
def State.respond (r : Response) (s : State) : State := { s with responses := s.responses ++ [r] }

/-- Reset is asserted (70_reset_and_hazards.md R220 to R222): every register takes its reset value, the
engine is idle, a running command is abandoned, and no buffer byte has a known value. -/
def State.assertReset (s : State) : State :=
  { s with
    cmd := 0, status := Status.reset, inLen := 0, outLen := 0, result := 0, ibuf := [], obuf := [],
    dp := Datapath.reset, resetLine := true, ibufEpoch := s.draws, obufEpoch := s.draws,
    draws := s.draws + 1 }

/-- Reset is released (R220). -/
def State.releaseReset (s : State) : State := { s with resetLine := false }

end Sys2Proof.Machine
end

