-- ==== Sys2Proof/Machine/Bus.lean ====
section
/-! DEFINITION. The host bus (20_memory.md R50 to R57; 10_state.md R22 to R31;
70_reset_and_hazards.md R230 to R232). -/
namespace Sys2Proof.Machine

/-- What a mapped offset reaches (10_state.md R22). A buffer word is named by its first byte. -/
inductive Target where
  | cmd
  | status
  | inLen
  | outLen
  | result
  | id
  | ibufSz
  | obufSz
  | ibufWord (first : Nat)
  | obufWord (first : Nat)
deriving DecidableEq, Repr

/-- The start of the IBUF window (R22). -/
abbrev ibufWindow : Nat := 0x10000
/-- The start of the OBUF window (R22). -/
abbrev obufWindow : Nat := 0x20000

/-- The host register at an offset, if one is there (R22). -/
def registerAt (offset : Nat) : Option Target :=
  match offset with
  | 0 => some .cmd
  | 4 => some .status
  | 8 => some .inLen
  | 12 => some .outLen
  | 16 => some .result
  | 20 => some .id
  | 24 => some .ibufSz
  | 28 => some .obufSz
  | _ => none

/-- The address map at aligned offsets (R22, 20_memory.md R53, R54): a register, a word of a buffer inside
its capacity, or nothing. -/
def State.target (s : State) (offset : Nat) : Option Target :=
  if ibufWindow ≤ offset ∧ offset < ibufWindow + s.ibufSz.bytes then some (.ibufWord (offset - ibufWindow))
  else if obufWindow ≤ offset ∧ offset < obufWindow + s.obufSz.bytes then
    some (.obufWord (offset - obufWindow))
  else registerAt offset

/-- Four bytes as a bus word: byte `4k` in data[7:0] (R54). -/
def laneWord (byteAt : Nat → Byte) (first : Nat) : Word :=
  byteAt (first + 3) ++ byteAt (first + 2) ++ byteAt (first + 1) ++ byteAt first

/-- The byte of a bus word in lane `k`, data[8k+7:8k] (R54). -/
def laneByte (data : Word) (k : Nat) : Byte := data.extractLsb' (8 * k) 8

/-- The word a read returns; OBUF's is what it holds (R22 to R30, R54). -/
def State.readValue (s : State) : Target → Word
  | .cmd => s.cmd
  | .status => s.status.word
  | .inLen => s.inLen
  | .outLen => s.outLen
  | .result => s.result
  | .id => Config.idWord
  | .ibufSz => BitVec.ofNat 32 s.ibufSz.bytes
  | .obufSz => BitVec.ofNat 32 s.obufSz.bytes
  | .ibufWord first => laneWord s.ibufAt first
  | .obufWord first => laneWord s.obufAt first

/-- The response OK to a read. -/
def okRead (data : Word) : Response := { code := .ok, data := some data }
/-- The response OK to a write. -/
def okWrite : Response := { code := .ok, data := none }

/-- The response BUSERR; a read returns 0 (R52, R53). -/
def busError : AccessOp → Response
  | .read => { code := .busErr, data := some 0 }
  | .write _ => { code := .busErr, data := none }

/-- A read of the OBUF window while BUSY = 1: an unspecified value, a fresh one each time
(70_reset_and_hazards.md R232; log 3). -/
def State.readBusyObuf (s : State) : State :=
  State.respond (okRead (Config.busyObuf s.draws)) { s with draws := s.draws + 1 }

/-- A read of a mapped word; it changes no state of the block (R57). -/
def State.readTarget (s : State) : Target → State
  | .obufWord first =>
    if s.status.busy then s.readBusyObuf else s.respond (okRead (s.readValue (.obufWord first)))
  | t => s.respond (okRead (s.readValue t))

/-- A write while BUSY = 1 is dropped and sets DROPPED (R230). -/
def State.dropWrite (s : State) : State := { s with status := s.status.droppedWrite }

/-- `IN_LEN <- data` (10_state.md R25). -/
def State.writeInLen (data : Word) (s : State) : State := { s with inLen := data }

/-- All four bytes of a word of IBUF (R54). -/
def State.storeIbuf (first : Nat) (data : Word) (s : State) : State :=
  let m0 := Memory.write s.ibuf first (laneByte data 0)
  let m1 := Memory.write m0 (first + 1) (laneByte data 1)
  let m2 := Memory.write m1 (first + 2) (laneByte data 2)
  { s with ibuf := Memory.write m2 (first + 3) (laneByte data 3) }

/-- A write that the block takes while BUSY = 0 and drops while BUSY = 1 (R230). -/
def State.guarded (write : State → State) (s : State) : State :=
  if s.status.busy then s.dropWrite else write s

/-- The effect of a write to a mapped word: CMD, IN_LEN and IBUF take it while BUSY = 0; a read-only
register and the OBUF window ignore it (R23, R25, R31, R54). -/
def State.writeEffect (s : State) (data : Word) : Target → State
  | .cmd => s.guarded (State.accept data)
  | .inLen => s.guarded (State.writeInLen data)
  | .ibufWord first => s.guarded (State.storeIbuf first data)
  | .status => s
  | .outLen => s
  | .result => s
  | .id => s
  | .ibufSz => s
  | .obufSz => s
  | .obufWord _ => s

/-- A 32-bit access at a multiple of 4 (R52). -/
def Access.aligned (a : Access) : Bool := a.size == .bits32 && a.offset.toNat % 4 == 0

/-- A host access: the state after it, its response appended (R50 to R54). -/
def State.busAccess (a : Access) (s : State) : State :=
  if a.aligned then
    match s.target a.offset.toNat with
    | none => s.respond (busError a.op)
    | some t =>
      match a.op with
      | .read => s.readTarget t
      | .write data => (s.writeEffect data t).respond okWrite
  else s.respond (busError a.op)

/-- An input reaches the block. While reset is asserted the host has no step
(70_reset_and_hazards.md R223; log 10). -/
def applyInput (e : Input) (s : State) : Host.Outcome State Fault Refusal :=
  match e with
  | .access a => if s.resetLine then .fault .accessDuringReset else .next (s.busAccess a)
  | .assertReset => .next s.assertReset
  | .releaseReset => .next s.releaseReset

end Sys2Proof.Machine
end

