-- ==== Sys2Proof/Machine/Rom.lean ====
section
/-! DEFINITION. The four constant ROMs (10_state.md R38 to R45) as data, and their checked lookups
(41_alphabet.md R100, R104; 43_chunked.md R151, R153). -/
namespace Sys2Proof.Machine

/-- ALPHA (R40, R41): the character code of each digit value 0 to 44. -/
def alphaRom : List Byte :=
  [0x30, 0x31, 0x32, 0x33, 0x34, 0x35, 0x36, 0x37, 0x38, 0x39, 0x41, 0x42, 0x43, 0x44, 0x45] ++
  [0x46, 0x47, 0x48, 0x49, 0x4A, 0x4B, 0x4C, 0x4D, 0x4E, 0x4F, 0x50, 0x51, 0x52, 0x53, 0x54] ++
  [0x55, 0x56, 0x57, 0x58, 0x59, 0x5A, 0x20, 0x24, 0x25, 0x2A, 0x2B, 0x2D, 0x2E, 0x2F, 0x3A]

/-- A run of UNMAPPED entries of REV. -/
def unmapped (n : Nat) : List (Option Nat) := List.replicate n none

/-- REV (R42): 256 entries in byte-code order; `none` is UNMAPPED (93_implementation_defined.md U3). -/
def revRom : List (Option Nat) :=
  unmapped 0x20 ++
  [some 36, none, none, none, some 37, some 38, none, none] ++
  [none, none, some 39, some 40, none, some 41, some 42, some 43] ++
  [some 0, some 1, some 2, some 3, some 4, some 5, some 6, some 7, some 8, some 9] ++
  [some 44] ++ unmapped 6 ++
  [some 10, some 11, some 12, some 13, some 14, some 15, some 16, some 17, some 18, some 19] ++
  [some 20, some 21, some 22, some 23, some 24, some 25, some 26, some 27, some 28, some 29] ++
  [some 30, some 31, some 32, some 33, some 34, some 35] ++
  unmapped 0xA5

/-- B2D_ROM (R43): the digit count of each byte count 0 to 7. -/
def b2dRom : List Nat := [0, 2, 3, 5, 6, 8, 9, 11]

/-- D2B_ROM (R44): the byte count of each digit count 0 to 11; `none` is INVALID. -/
def d2bRom : List (Option Nat) :=
  [some 0, none, some 1, some 2, none, some 3, some 4, none, some 5, some 6, none, some 7]

/-- `D2C(d)` (41_alphabet.md R100): bounds check first, then the table. -/
def d2c (d : Nat) : Res Byte :=
  if Config.digitMax < d then .err .invalidDigitValue else .ok (alphaRom.getD d 0)

/-- `C2D(x)` (41_alphabet.md R104): bounds check first, then the table. -/
def c2d (x : Nat) : Res Nat :=
  if 255 < x then .err .invalidCharacter
  else
    match revRom.getD x none with
    | some d => .ok d
    | none => .err .invalidCharacter

/-- `B2D(n)` (43_chunked.md R151): bounds check first, then the table. -/
def b2d (n : Nat) : Res Nat :=
  if Config.chunkBytes < n then .err .invalidChunkLength else .ok (b2dRom.getD n 0)

/-- `D2B(m)` (43_chunked.md R153): bounds check first, then the table. -/
def d2b (m : Nat) : Res Nat :=
  if Config.chunkDigits < m then .err .invalidChunkLength
  else
    match d2bRom.getD m none with
    | some n => .ok n
    | none => .err .invalidChunkLength

/-- `[D2C(x) for x in digits]`: the characters in order, or the first digit's error. -/
def digitsToChars : List Nat → Res (List Byte)
  | [] => .ok []
  | d :: rest => (d2c d).bind fun c => (digitsToChars rest).bind fun cs => .ok (c :: cs)

/-- The digit values of characters in order, or the first character's error. -/
def charsToDigits : List Byte → Res (List Nat)
  | [] => .ok []
  | x :: rest => (c2d x.toNat).bind fun d => (charsToDigits rest).bind fun ds => .ok (d :: ds)

end Sys2Proof.Machine
end

