-- ==== Sys2Proof/Machine/Alphabet.lean ====
section
/-! DEFINITION. The lookup commands: D2C and C2D (41_alphabet.md R102, R106), B2D and D2B
(43_chunked.md R150, R152). Each gives its checked lookup of IMM as RESULT, or the lookup's error. -/
namespace Sys2Proof.Machine

/-- A number below 256 as the byte of a lookup's answer (40_control.md R94). -/
def answerByte (r : Res Nat) : Res Byte := r.bind fun n => .ok (BitVec.ofNat 8 n)

/-- D2C (R102): `v = D2C(IMM)`. -/
def execD2c (imm : Nat) (s : State) : Host.Outcome State Fault Refusal := lookup (d2c imm) s

/-- C2D (R106): `v = C2D(IMM)`. -/
def execC2d (imm : Nat) (s : State) : Host.Outcome State Fault Refusal := lookup (answerByte (c2d imm)) s

/-- B2D (R150): `v = B2D(IMM)`. -/
def execB2d (imm : Nat) (s : State) : Host.Outcome State Fault Refusal := lookup (answerByte (b2d imm)) s

/-- D2B (R152): `v = D2B(IMM)`. -/
def execD2b (imm : Nat) (s : State) : Host.Outcome State Fault Refusal := lookup (answerByte (d2b imm)) s

end Sys2Proof.Machine
end

