-- ==== Sys2Proof/Machine/Operands.lean ====
section
/-! DEFINITION. The operand forms (30_encoding.md R75). A lookup command's operand is its IMM, read as an
unsigned number (R73). A buffer command's operands are IN_LEN and the IBUF bytes below it, which the
engine consumes at IN_POS (10_state.md R36). -/
namespace Sys2Proof.Machine

/-- The input list of the prologue, `[IBUF[0], ..., IBUF[L-1]]` (40_control.md R91). -/
def State.input (s : State) : List Byte := (List.range s.inLen.toNat).map s.ibufAt

/-- The input bytes not yet consumed, `L - i`. -/
def State.remaining (s : State) : Nat := s.inLen.toNat - s.dp.inPos.toNat

/-- The input byte `k` places after IN_POS. -/
def State.peek (s : State) (k : Nat) : Byte := s.ibufAt (s.dp.inPos.toNat + k)

/-- `IN_POS <- IN_POS + k`. -/
def State.consume (k : Nat) (s : State) : State :=
  { s with dp := { s.dp with inPos := s.dp.inPos + BitVec.ofNat 17 k } }

/-- `ACC <- v`. -/
def State.loadAcc (v : Acc) (s : State) : State := { s with dp := { s.dp with acc := v } }

/-- A digit or byte widened into the accumulator's width with zeros (00_scope.md R9). -/
def widen {n : Nat} (v : BitVec n) : Acc := v.setWidth 64

end Sys2Proof.Machine
end

