-- ==== Sys2Proof/Machine/Chunked.lean ====
section
/-! DEFINITION. The chunked codec as the engine runs it on its registers: ENCQR (43_chunked.md R160 to
R162) and DECQR (R170 to R174). -/
namespace Sys2Proof.Machine

/-- The start of a chunk clears ACC, NB and ND, which empties DIGBUF, and empties LIFO
(10_state.md R33 to R35; 43_chunked.md R162, R174). -/
def State.clearChunk (s : State) : State :=
  { s with dp := { s.dp with acc := 0, nb := 0, nd := 0, lifoDepth := 0 } }

/-- ENCQR reads a byte: `ACC <- ACC*256 + IBUF[IN_POS]`; NB counts it (R162). -/
def State.foldByte (s : State) : State :=
  let a := s.dp.acc * 256 + widen (s.peek 0)
  State.consume 1 { s with dp := { s.dp with acc := a, nb := s.dp.nb + 1 } }

/-- ENCQR reads the bytes of a chunk in order. -/
def State.foldBytes : Nat → State → State
  | 0, s => s
  | n + 1, s => State.foldBytes n s.foldByte

/-- ENCQR pushes `ACC mod 45` into DIGBUF at ND, counts it, and divides ACC by 45 (R162). -/
def State.pushDigit (s : State) : State :=
  { s with
    dp := { s.dp with
      digbuf := s.dp.digbuf.setIfInBounds s.dp.nd.toNat ((s.dp.acc % 45).setWidth 6),
      nd := s.dp.nd + 1, acc := s.dp.acc / 45 } }

/-- ENCQR pushes `k` digits. -/
def State.pushDigits : Nat → State → State
  | 0, s => s
  | k + 1, s => State.pushDigits k s.pushDigit

/-- Entry `i` of DIGBUF. -/
def State.digit (s : State) (i : Nat) : Nat := (s.dp.digbuf.toList.getD i 0).toNat

/-- DIGBUF from entry `k-1` down to entry 0 (R162). -/
def State.digitsDown (s : State) : Nat → List Nat
  | 0 => []
  | k + 1 => s.digit k :: s.digitsDown k

/-- One chunk of ENCQR (R161, R162). -/
def encqrPass (s : State) : Res State :=
  let s1 := State.foldBytes (min Config.chunkBytes s.remaining) s.clearChunk
  (b2d s1.dp.nb.toNat).bind fun k =>
    let s2 := State.pushDigits k s1
    (digitsToChars (s2.digitsDown k)).bind fun out => s2.emitGroup out

/-- ENCQR (R160). -/
def execEncqr (s : State) : Host.Outcome State Fault Refusal := runBuffer encqrPass s

/-- DECQR reads a character through C2D: `ACC <- ACC*45 + digit`; ND counts it (R174). -/
def State.foldChar (s : State) : Res State :=
  (c2d (s.peek 0).toNat).bind fun d =>
    let a := s.dp.acc * 45 + BitVec.ofNat 64 d
    .ok (State.consume 1 { s with dp := { s.dp with acc := a, nd := s.dp.nd + 1 } })

/-- DECQR reads the characters of a chunk in order, to the first invalid one (R173). -/
def State.foldChars : Nat → State → Res State
  | 0, s => .ok s
  | m + 1, s => s.foldChar.bind (State.foldChars m)

/-- DECQR pushes `ACC mod 256` on LIFO and shifts ACC right by 8 (R171, R174). -/
def State.pushByte (s : State) : State :=
  { s with
    dp := { s.dp with
      lifo := s.dp.lifo.setIfInBounds s.dp.lifoDepth.toNat (s.dp.acc.setWidth 8),
      lifoDepth := s.dp.lifoDepth + 1, acc := s.dp.acc >>> 8 } }

/-- DECQR pushes `n` bytes. -/
def State.pushBytes : Nat → State → State
  | 0, s => s
  | n + 1, s => State.pushBytes n s.pushByte

/-- Entry `i` of LIFO. -/
def State.lifoEntry (s : State) (i : Nat) : Byte := s.dp.lifo.toList.getD i 0

/-- The `n` lowest entries of LIFO as they pop: last in, first out (R174, R177). -/
def State.lifoDown (s : State) : Nat → List Byte
  | 0 => []
  | n + 1 => s.lifoEntry n :: s.lifoDown n

/-- LIFO popped to the bottom. -/
def State.emptyLifo (s : State) : State := { s with dp := { s.dp with lifoDepth := 0 } }

/-- `NB <- n` (R174). -/
def State.loadNb (n : Nat) (s : State) : State :=
  { s with dp := { s.dp with nb := BitVec.ofNat 3 n } }

/-- One chunk of DECQR (R171, R173, R174). -/
def decqrPass (s : State) : Res State :=
  (State.foldChars (min Config.chunkDigits s.remaining) s.clearChunk).bind fun s1 =>
    (d2b s1.dp.nd.toNat).bind fun n =>
      let s2 := s1.loadNb n
      let s3 := State.pushBytes s2.dp.nb.toNat s2
      s3.emptyLifo.emitGroup (s3.lifoDown s3.dp.lifoDepth.toNat)

/-- DECQR (R170). -/
def execDecqr (s : State) : Host.Outcome State Fault Refusal := runBuffer decqrPass s

end Sys2Proof.Machine
end

