-- ==== Sys2Proof/Machine/Control.lean ====
section
/-! DEFINITION. The control command NOP (40_control.md R95). -/
namespace Sys2Proof.Machine

/-- NOP: the prologue passes, nothing is done, the command completes (R95). -/
def execNop (s : State) : Host.Outcome State Fault Refusal := .next s.complete

end Sys2Proof.Machine
end

