-- ==== Sys2Proof/Machine/Triplet.lean ====
section
/-! DEFINITION. The triplet codec as the engine runs it on its registers: ENC45 (42_triplet.md R120 to
R122) and DEC45 (R130 to R134). -/
namespace Sys2Proof.Machine

/-- A pass of ENC45 with two bytes left or more: `ACC <- a*256 + b`, three characters (R121, R122). -/
def enc45Pair (s : State) : Res State :=
  let s1 := s.loadAcc (widen (s.peek 0) * 256 + widen (s.peek 1))
  let n := s1.dp.acc
  let e := n / 2025
  let r := n % 2025
  let d := r / 45
  let c := r % 45
  (digitsToChars [c.toNat, d.toNat, e.toNat]).bind fun out => (s1.consume 2).emitGroup out

/-- The last pass of ENC45, with one byte left: `ACC <- a`, two characters (R121, R122). -/
def enc45Single (s : State) : Res State :=
  let s1 := s.loadAcc (widen (s.peek 0))
  let c := s1.dp.acc % 45
  let d := s1.dp.acc / 45
  (digitsToChars [c.toNat, d.toNat]).bind fun out => (s1.consume 1).emitGroup out

/-- One pass of ENC45. -/
def enc45Pass (s : State) : Res State := if 2 ≤ s.remaining then enc45Pair s else enc45Single s

/-- ENC45 (R120). -/
def execEnc45 (s : State) : Host.Outcome State Fault Refusal := runBuffer enc45Pass s

/-- `ACC <- c + 45*d + 2025*e` (R134), its 17 bits compared with `TRIPLET_MAX` (R131, R135). -/
def loadTriplet (c d e : Nat) (s : State) : Res State :=
  let s1 := s.loadAcc (BitVec.ofNat 64 c + 45 * BitVec.ofNat 64 d + 2025 * BitVec.ofNat 64 e)
  if Config.tripletMax < s1.dp.acc.toNat then .err .accumulatorOverflow else .ok s1

/-- `b = acc mod 256`. -/
def lowByte (v : Acc) : Byte := v.setWidth 8

/-- A pass of DEC45 with three characters left or more (R131). -/
def dec45Triplet (s : State) : Res State :=
  (c2d (s.peek 0).toNat).bind fun c => (c2d (s.peek 1).toNat).bind fun d =>
    (c2d (s.peek 2).toNat).bind fun e => (loadTriplet c d e s).bind fun s1 =>
      (s1.consume 3).emitGroup [lowByte (s1.dp.acc / 256), lowByte s1.dp.acc]

/-- The last pass of DEC45, with two characters left: the high part is discarded (R131, R137). -/
def dec45Pair (s : State) : Res State :=
  (c2d (s.peek 0).toNat).bind fun c => (c2d (s.peek 1).toNat).bind fun d =>
    (loadTriplet c d 0 s).bind fun s1 => (s1.consume 2).emitGroup [lowByte s1.dp.acc]

/-- One pass of DEC45: the remaining length is checked before any character is translated (R132, R133). -/
def dec45Pass (s : State) : Res State :=
  if s.remaining = 1 then .err .truncatedInput
  else if 3 ≤ s.remaining then dec45Triplet s
  else dec45Pair s

/-- DEC45 (R130). -/
def execDec45 (s : State) : Host.Outcome State Fault Refusal := runBuffer dec45Pass s

end Sys2Proof.Machine
end

