-- ==== Sys2Proof/Machine/Dispatch.lean ====
section
/-! DEFINITION. The meaning of each command: one arm a constructor. -/
namespace Sys2Proof.Machine

def exec (i : Instr) (s : State) : Host.Outcome State Fault Refusal :=
  match i with
  | .nop => Sys2Proof.Machine.execNop s
  | .enc45 => Sys2Proof.Machine.execEnc45 s
  | .dec45 => Sys2Proof.Machine.execDec45 s
  | .encqr => Sys2Proof.Machine.execEncqr s
  | .decqr => Sys2Proof.Machine.execDecqr s
  | .d2c imm => Sys2Proof.Machine.execD2c imm s
  | .c2d imm => Sys2Proof.Machine.execC2d imm s
  | .b2d imm => Sys2Proof.Machine.execB2d imm s
  | .d2b imm => Sys2Proof.Machine.execD2b imm s

end Sys2Proof.Machine
end

