-- ==== Sys2Proof/Machine/Engine.lean ====
section
/-! DEFINITION. One step of each agent, and who moves (40_control.md R91, 70_reset_and_hazards.md R228). -/
namespace Sys2Proof.Machine

/-- The engine's step: the prologue decodes CUR; an illegal word ends with ILLEGAL_COMMAND without touching
OBUF (40_control.md R91, 30_encoding.md R78), a legal one runs. -/
def engineStep (s : State) : Host.Outcome State Fault Refusal :=
  match decode s.dp.cur with
  | .legal i => exec i s
  | .illegal _ => .next (s.raise .illegalCommand)

/-- Does the engine move next? It can while BUSY = 1 and reset is not asserted; then it does unless the next
turn is the host's and the host has an input to give (log 7). -/
def State.engineMoves (s : State) : Bool :=
  s.status.busy && !s.resetLine && (s.pending.isEmpty || s.schedule.head? != some .host)

/-- The host's side of a step: the oldest input, if there is one; a turn is used up while BUSY = 1. -/
def hostStep (s : State) : Host.Outcome State Fault Refusal :=
  match s.pending with
  | [] => .next s
  | e :: rest =>
    let s1 := if s.status.busy then s.takeTurn else s
    applyInput e { s1 with pending := rest }

/-- One step of the machine: an engine step or a host input. With neither the machine waits (log 11). -/
def machineStep (s : State) : Host.Outcome State Fault Refusal :=
  if s.engineMoves then engineStep s.takeTurn else hostStep s

/-- The state in which the next step is the engine's and its command word is `w`: `w` has just been accepted
(40_control.md R90), and the engine has the next turn (log 8). -/
def State.withCommand (w : Word) (s : State) : State :=
  State.accept w { s with resetLine := false, schedule := .engine :: s.schedule }

end Sys2Proof.Machine
end

