-- ==== Sys2Proof/Machine/Step.lean ====
section
/-! DEFINITION. The step function, and how a command word is placed where the next step runs it. -/
namespace Sys2Proof.Machine

/-- One step (70_reset_and_hazards.md R228). -/
def step (s : State) : Host.Outcome State Fault Refusal := machineStep s

/-- The word is placed where the engine takes its command from: CUR, as accepted (log 8). -/
def State.withFetchWord (s : State) (nbits w : Nat) : State := s.withCommand (tableWord nbits w)

end Sys2Proof.Machine
end

