-- ==== Sys2Proof/Machine/Contract.lean ====
section
/-! DEFINITION. The pure functions of the buffer commands, on lists and unbounded numbers
(42_triplet.md R121, R131; 43_chunked.md R161, R171): the contract that the engine's run meets
(40_control.md R96). A capacity is a number of bytes, or none where it is unbounded. -/
namespace Sys2Proof.Machine

/-- Does an output of `n` bytes fit? `none` is the unbounded capacity `∞` (R12). -/
def fits (cap : Option Nat) (n : Nat) : Bool :=
  match cap with
  | none => true
  | some c => decide (n ≤ c)

/-- `emit_group(s)` in a pure function (00_scope.md R12). -/
def append (cap : Option Nat) (out group : List Byte) : Res (List Byte) :=
  if fits cap (out.length + group.length) then .ok (out ++ group) else .err .outputOverflow

/-- The loop of the pure functions: the input in groups of `width` bytes, the last one shorter if need be,
each converted and appended in turn. The bound is the number of passes left. -/
def convert (width : Nat) (group : List Byte → Res (List Byte)) (cap : Option Nat) :
    Nat → List Byte → List Byte → Res (List Byte)
  | 0, out, _ => .ok out
  | bound + 1, out, input =>
    if input.isEmpty then .ok out
    else
      (group (input.take width)).bind fun s =>
        (append cap out s).bind fun out' => convert width group cap bound out' (input.drop width)

/-- A whole conversion from an empty output; the input's length bounds the passes. -/
def convertAll (width : Nat) (group : List Byte → Res (List Byte)) (input : List Byte)
    (cap : Option Nat) : Res (List Byte) :=
  convert width group cap input.length [] input

/-- The number a list spells in a base, first element most significant (R55). -/
def bigEndian (base : Nat) (digits : List Nat) : Nat := digits.foldl (fun acc d => acc * base + d) 0

/-- A group of ENC45 (R121): two bytes to three characters, a last byte to two, low digit first. -/
def enc45Group : List Byte → Res (List Byte)
  | [a, b] =>
    let n := a.toNat * 256 + b.toNat
    let e := n / 2025
    let r := n % 2025
    digitsToChars [r % 45, r / 45, e]
  | [a] => digitsToChars [a.toNat % 45, a.toNat / 45]
  | _ => .ok []

/-- `c + 45*d + 2025*e`, checked against `TRIPLET_MAX` (R131). -/
def tripletValue (c d e : Nat) : Res Nat :=
  let acc := c + 45 * d + 2025 * e
  if Config.tripletMax < acc then .err .accumulatorOverflow else .ok acc

/-- A group of DEC45 (R131): the length first, then the characters in order, then the overflow bound. -/
def dec45Group : List Byte → Res (List Byte)
  | [_] => .err .truncatedInput
  | [x, y] =>
    (c2d x.toNat).bind fun c => (c2d y.toNat).bind fun d =>
      (tripletValue c d 0).bind fun acc => .ok [BitVec.ofNat 8 (acc % 256)]
  | [x, y, z] =>
    (c2d x.toNat).bind fun c => (c2d y.toNat).bind fun d => (c2d z.toNat).bind fun e =>
      (tripletValue c d e).bind fun acc =>
        .ok [BitVec.ofNat 8 (acc / 256), BitVec.ofNat 8 (acc % 256)]
  | _ => .ok []

/-- `k` digits of a number, least significant first (R161). -/
def lowDigits : Nat → Nat → List Nat
  | 0, _ => []
  | k + 1, acc => acc % 45 :: lowDigits k (acc / 45)

/-- A chunk of ENCQR (R161). -/
def encqrChunk (chunk : List Byte) : Res (List Byte) :=
  let acc := bigEndian 256 (chunk.map BitVec.toNat)
  (b2d chunk.length).bind fun k => digitsToChars (lowDigits k acc).reverse

/-- `n` bytes of a number pushed on a last-in-first-out list, least significant first (R171). -/
def pushBytes : Nat → Nat → List Byte → List Byte
  | 0, _, lifo => lifo
  | n + 1, acc, lifo => pushBytes n (acc / 256) (BitVec.ofNat 8 (acc % 256) :: lifo)

/-- A chunk of DECQR (R171): the characters in order, then the chunk's length; high bits left in the
accumulator are discarded (R178). -/
def decqrChunk (chunk : List Byte) : Res (List Byte) :=
  (charsToDigits chunk).bind fun digits =>
    (d2b chunk.length).bind fun nb => .ok (pushBytes nb (bigEndian 45 digits) [])

/-- `enc45(in, cap)` (42_triplet.md R121). -/
def enc45 (input : List Byte) (cap : Option Nat) : Res (List Byte) := convertAll 2 enc45Group input cap

/-- `dec45(in, cap)` (42_triplet.md R131). -/
def dec45 (input : List Byte) (cap : Option Nat) : Res (List Byte) := convertAll 3 dec45Group input cap

/-- `encqr(in, cap)` (43_chunked.md R161). -/
def encqr (input : List Byte) (cap : Option Nat) : Res (List Byte) :=
  convertAll Config.chunkBytes encqrChunk input cap

/-- `decqr(in, cap)` (43_chunked.md R171). -/
def decqr (input : List Byte) (cap : Option Nat) : Res (List Byte) :=
  convertAll Config.chunkDigits decqrChunk input cap

end Sys2Proof.Machine
end

