-- ==== Sys2Proof/Machine/HostProgram.lean ====
section
/-! DEFINITION. The host's side of a program: its instructions and pseudo-instructions, the accesses they
expand to and how the host runs them on the machine (30_encoding.md R81, R82), and the syntax of a command
line (R80). -/
namespace Sys2Proof.Machine

/-- `rd OFF` (R81). -/
def rd (offset : BitVec 18) : Access := { offset := offset, size := .bits32, op := .read }

/-- `wr OFF, DATA` (R81). -/
def wr (offset : BitVec 18) (data : Word) : Access := { offset := offset, size := .bits32, op := .write data }

/-- The offset of a symbolic name (R81). -/
def symbolicOffset (name : String) : Option (BitVec 18) :=
  match name with
  | "CMD" => some 0x00000
  | "STATUS" => some 0x00004
  | "IN_LEN" => some 0x00008
  | "OUT_LEN" => some 0x0000C
  | "RESULT" => some 0x00010
  | "ID" => some 0x00014
  | "IBUF_SZ" => some 0x00018
  | "OBUF_SZ" => some 0x0001C
  | "IBUF" => some 0x10000
  | "OBUF" => some 0x20000
  | _ => none

/-- The number of words that hold `n` bytes, `⌈n/4⌉`. -/
def wordCount (n : Nat) : Nat := (n + 3) / 4

/-- The offset of word `k` of a buffer window. -/
def windowOffset (window k : Nat) : BitVec 18 := BitVec.ofNat 18 (window + 4 * k)

/-- `LOADIN s` (R82): the words of IBUF in order, bytes past the end of `s` written as 0x00, then IN_LEN. -/
def loadIn (s : List Byte) : List Access :=
  ((List.range (wordCount s.length)).map fun k =>
    wr (windowOffset ibufWindow k) (laneWord (fun i => s.getD i 0) (4 * k))) ++
  [wr 0x00008 (BitVec.ofNat 32 s.length)]

/-- `RUN c` (R82). -/
def runCommand (c : Instr) : Access := wr 0x00000 (encode c)

/-- One pass of the loop of `WAIT` (R82). -/
def waitRead : Access := rd 0x00004

/-- `WAIT` leaves its loop on this STATUS word (R82). -/
def waitEnds (t : Word) : Bool := !t.getLsbD 0

/-- The reads of `READOUT` (R82) once OUT_LEN was read as `n`. -/
def readOutWords (n : Nat) : List Access :=
  (List.range (wordCount n)).map fun k => rd (windowOffset obufWindow k)

/-- The string of `READOUT` (R82): the first `n` bytes of the words, each word little-endian. -/
def readOutBytes (n : Nat) (words : List Word) : List Byte :=
  (words.flatMap fun w => (List.range 4).map (laneByte w)).take n

/-- The data word that an access made now returns, if it is a read. -/
def State.answer (a : Access) (s : State) : Option Word :=
  (s.busAccess a).responses.getLast?.bind Response.data

/-! The host running its instructions on the machine, one access after the other (20_memory.md R50). `none`
is where the host has no next instruction: the machine stopped (log 10), or a bound on its steps was used up,
which a state with reset released and no other input pending never does (log 23). -/

/-- Steps until every pending input has been taken, at most `bound` of them. -/
def settle : Nat → State → Option State
  | 0, s => if s.pending.isEmpty then some s else none
  | bound + 1, s =>
    if s.pending.isEmpty then some s
    else
      match step s with
      | .next t => settle bound t
      | .fault _ => none
      | .refused _ => none

/-- The host issues an access after those it has issued. -/
def State.issue (a : Access) (s : State) : State := { s with pending := s.pending ++ [.access a] }

/-- The host issues an access and gets its response. At most one engine step comes before each input. -/
def hostAccess (a : Access) (s : State) : Option (State × Response) :=
  let s1 := s.issue a
  (settle (2 * s1.pending.length) s1).bind fun t => t.responses.getLast?.map fun r => (t, r)

/-- The host issues writes and takes no word from them. -/
def hostWrites : List Access → State → Option State
  | [], s => some s
  | a :: rest, s => (hostAccess a s).bind fun answer => hostWrites rest answer.1

/-- `rd OFF -> w` (R81). -/
def hostRead (offset : BitVec 18) (s : State) : Option (State × Word) :=
  (hostAccess (rd offset) s).bind fun answer => answer.2.data.map fun w => (answer.1, w)

/-- Reads in order, with the words they return. -/
def hostReads : List Access → State → Option (State × List Word)
  | [], s => some (s, [])
  | a :: rest, s =>
    (hostRead a.offset s).bind fun first =>
      (hostReads rest first.1).map fun others => (others.1, first.2 :: others.2)

/-- The loop of `WAIT` (R82): `loop: rd STATUS -> t; if t[0] == 1 goto loop`, with at most `passes` passes. -/
def waitLoop : Nat → State → Option State
  | 0, _ => none
  | passes + 1, s =>
    (hostRead waitRead.offset s).bind fun answer =>
      if waitEnds answer.2 then some answer.1 else waitLoop passes answer.1

/-- `WAIT` (R82). A pass that reads BUSY = 1 uses a turn of the schedule up, so the bound cuts no loop short
(70_reset_and_hazards.md R228; logs 7 and 23). -/
def hostWait (s : State) : Option State := waitLoop (s.schedule.length + 1) s

/-- `READOUT -> s` (R82): `rd OUT_LEN -> n`, then the words that hold `n` bytes of OBUF. -/
def hostReadOut (s : State) : Option (State × List Byte) :=
  (hostRead 0x0000C s).bind fun length =>
    (hostReads (readOutWords length.2.toNat) length.1).map fun answer =>
      (answer.1, readOutBytes length.2.toNat answer.2)

/-- The data of a `wr`: a number, or a word that an earlier `rd` named (95_test_vectors.md P2). -/
inductive HostData where
  | word (w : Word)
  | named (name : String)
deriving DecidableEq, Repr

/-- The instructions and pseudo-instructions of a host program (R81, R82). -/
inductive HostInstr where
  | wr (offset : BitVec 18) (data : HostData)
  | rd (offset : BitVec 18) (name : String)
  | loadIn (bytes : List Byte)
  | run (c : Instr)
  | wait
  | readOut (name : String)
deriving DecidableEq, Repr

/-- The machine and what the host has named: the words of its `rd`s and the strings of its `READOUT`s, the
latest first, which hides an earlier one of the same name (log 24). -/
structure HostRun where
  machine : State
  words   : List (String × Word)
  strings : List (String × List Byte)
deriving DecidableEq, Repr

/-- The word of a `wr`'s data, if its name has one. -/
def HostData.value (words : List (String × Word)) : HostData → Option Word
  | .word w => some w
  | .named name => words.lookup name

/-- One instruction of a host program (R81, R82). DESIGN CHOICE (log 24): the names inside the expansions of
WAIT and READOUT (`t`, `n`, `w_k`) are local to them; only R81's `rd` names a word, and READOUT names its
string. -/
def HostInstr.perform (h : HostInstr) (r : HostRun) : Option HostRun :=
  match h with
  | .wr offset data =>
    (data.value r.words).bind fun w =>
      (hostWrites [Machine.wr offset w] r.machine).map fun t => { r with machine := t }
  | .rd offset name =>
    (hostRead offset r.machine).map fun answer =>
      { r with machine := answer.1, words := (name, answer.2) :: r.words }
  | .loadIn bytes => (hostWrites (Machine.loadIn bytes) r.machine).map fun t => { r with machine := t }
  | .run c => (hostWrites [runCommand c] r.machine).map fun t => { r with machine := t }
  | .wait => (hostWait r.machine).map fun t => { r with machine := t }
  | .readOut name =>
    (hostReadOut r.machine).map fun answer =>
      { r with machine := answer.1, strings := (name, answer.2) :: r.strings }

/-- A host program, in order: `WAIT`'s loop is its only control flow (R82). -/
def runHostProgram : List HostInstr → HostRun → Option HostRun
  | [], r => some r
  | h :: rest, r => (h.perform r).bind (runHostProgram rest)

/-- A host program from a state of the machine, with nothing named yet. -/
def State.runProgram (program : List HostInstr) (s : State) : Option HostRun :=
  runHostProgram program { machine := s, words := [], strings := [] }

/-! Command lines (R80). -/

/-- The value of a decimal digit. -/
def decimalDigit (c : Char) : Option Nat :=
  if 48 ≤ c.toNat ∧ c.toNat ≤ 57 then some (c.toNat - 48) else none

/-- The value of a hexadecimal digit, in either case. -/
def hexDigit (c : Char) : Option Nat :=
  if 65 ≤ c.toNat ∧ c.toNat ≤ 70 then some (c.toNat - 55)
  else if 97 ≤ c.toNat ∧ c.toNat ≤ 102 then some (c.toNat - 87)
  else decimalDigit c

/-- The number that one digit or more spell, most significant first. -/
def numeral (base : Nat) (digit : Char → Option Nat) : Nat → List Char → Option Nat
  | _, [] => none
  | acc, [c] => (digit c).map fun d => acc * base + d
  | acc, c :: rest => (digit c).bind fun d => numeral base digit (acc * base + d) rest

/-- The apostrophe, 0x27. -/
def apostrophe : Char := Char.ofNat 39

/-- An operand after its `#`: a quoted printable character, a hex number, or a decimal number. -/
def operandValue (text : List Char) : Option Nat :=
  match text with
  | [q, c, q'] =>
    if q = apostrophe ∧ q' = apostrophe then
      if 32 ≤ c.toNat ∧ c.toNat ≤ 126 then some c.toNat else none
    else if q = '0' ∧ c = 'x' then numeral 16 hexDigit 0 [q']
    else numeral 10 decimalDigit 0 text
  | '0' :: 'x' :: rest => numeral 16 hexDigit 0 rest
  | _ => numeral 10 decimalDigit 0 text

/-- The immediate of a lookup command's line: one space, `#`, and a number from 0 to 65535 (log 22). -/
def lineImmediate (rest : List Char) : Option Nat :=
  match rest with
  | ' ' :: '#' :: text => (operandValue text).filter immFits
  | _ => none

/-- The command of a line: the mnemonic, and the immediate of a lookup command (R80; log 22). -/
def assemble (line : String) : Option Instr :=
  let text := line.toList
  let rest := text.dropWhile fun c => c ≠ ' '
  match String.ofList (text.takeWhile fun c => c ≠ ' ') with
  | "NOP" => if rest = [] then some .nop else none
  | "ENC45" => if rest = [] then some .enc45 else none
  | "DEC45" => if rest = [] then some .dec45 else none
  | "ENCQR" => if rest = [] then some .encqr else none
  | "DECQR" => if rest = [] then some .decqr else none
  | "D2C" => (lineImmediate rest).map .d2c
  | "C2D" => (lineImmediate rest).map .c2d
  | "B2D" => (lineImmediate rest).map .b2d
  | "D2B" => (lineImmediate rest).map .d2b
  | _ => none

end Sys2Proof.Machine
end

