-- ==== Sys2Proof/Safety.lean ====
section
/-! DEFINITION. What holds at every instant the host can observe (10_state.md R24 to R27, R36, R46, R47), and
what a safe step is. -/
namespace Sys2Proof.Machine

/-- The invariants of STATUS (R24). -/
structure Status.Legal (f : Status) : Prop where
  /-- BUSY = 1 implies DONE = 0 and ERR = 0. -/
  busy_alone : f.busy = true → f.done = false ∧ f.err = false
  /-- DONE and ERR are never both 1. -/
  done_or_err : ¬(f.done = true ∧ f.err = true)
  /-- ERRCODE is not 0 exactly when ERR = 1. -/
  errcode_iff : f.errcode ≠ 0 ↔ f.err = true
  /-- ERRCODE 9 to 15 are never produced (60_exceptions.md R190). -/
  errcode_le : f.errcode.toNat ≤ 8

/-- The ranges of the datapath's counters, digits and output pointer (R34 to R36). -/
structure Datapath.InRange (obufBytes : Nat) (d : Datapath) : Prop where
  /-- ND is 0 to 11. -/
  nd_le : d.nd.toNat ≤ 11
  /-- Each entry of DIGBUF is a digit 0 to 44. -/
  digits_le : ∀ x, x ∈ d.digbuf → x.toNat ≤ 44
  /-- `OUT_POS` ≤ `OBUF_SIZE`. -/
  outPos_le : d.outPos.toNat ≤ obufBytes

/-- The invariant of the machine. -/
structure State.Inv (s : State) : Prop where
  status_legal : s.status.Legal
  /-- OUT_LEN and RESULT are 0 while BUSY = 1 (R26, R27). -/
  busy_results : s.status.busy = true → s.outLen = 0 ∧ s.result = 0
  /-- OUT_LEN and RESULT are 0 after any error (R26, R27). -/
  err_results : s.status.err = true → s.outLen = 0 ∧ s.result = 0
  /-- OUT_LEN is 0 after a lookup command, RESULT after a buffer command (R26, R27). -/
  one_result : s.outLen = 0 ∨ s.result = 0
  /-- Both are 0 unless a command completed: DONE = 1. -/
  no_result : s.status.done = false → s.outLen = 0 ∧ s.result = 0
  /-- OUT_LEN never exceeds `OBUF_SIZE` (R26). -/
  outLen_le : s.outLen.toNat ≤ s.obufSz.bytes
  /-- RESULT[31:8] reads 0 (R27, R30). -/
  result_lt : s.result.toNat < 256
  /-- A command that is accepted and not yet run has CUR = CMD and IN_POS = OUT_POS = 0 (40_control.md R90). -/
  busy_fetch : s.status.busy = true → s.dp.cur = s.cmd ∧ s.dp.inPos = 0 ∧ s.dp.outPos = 0
  /-- The output of a completed buffer command is known (R47). -/
  output_known : ∀ i, i < s.outLen.toNat → (Memory.read s.obuf i).isSome = true
  ibuf_wf : Memory.wf s.ibuf = true
  ibuf_within : Memory.within s.ibufSz.bytes s.ibuf = true
  obuf_wf : Memory.wf s.obuf = true
  obuf_within : Memory.within s.obufSz.bytes s.obuf = true
  /-- While reset is asserted every register has its reset value and the engine is idle
  (70_reset_and_hazards.md R220). -/
  reset_values : s.resetLine = true →
    s.cmd = 0 ∧ s.status = Status.reset ∧ s.inLen = 0 ∧ s.outLen = 0 ∧ s.result = 0
  datapath_range : s.dp.InRange s.obufSz.bytes

/-- The step runs on: neither stuck nor refused. -/
def State.StepsOn (s : State) : Prop := ∃ t, step s = .next t

end Sys2Proof.Machine
end

