-- ==== Sys2Proof/Certificates/Slice0/Obligations.lean ====
section
/-! DEFINITION. The statements for the provers, each from the numbered rules of spec/. -/

namespace Sys2Proof.Claims

open Sys2Proof.Machine

/-- A command that has been accepted and not yet run, in a state that meets the invariant
(40_control.md R90). -/
def Accepted (s : State) : Prop := s.Inv ∧ s.status.busy = true

/-- The flags after a success (40_control.md R94). -/
def CompletedFlags (s t : State) : Prop :=
  t.status = { s.status with busy := false, done := true }

/-- The registers after an error of this code (60_exceptions.md R196). -/
def EndedWithCode (code : BitVec 4) (s t : State) : Prop :=
  t.status = { s.status with busy := false, done := false, err := true, errcode := code } ∧
    t.outLen = 0 ∧ t.result = 0

/-- The engine leaves alone what only the host or the platform changes. -/
def KeepsHostSide (s t : State) : Prop :=
  t.cmd = s.cmd ∧ t.inLen = s.inLen ∧ t.ibufSz = s.ibufSz ∧ t.obufSz = s.obufSz ∧
    (∀ a, t.ibufAt a = s.ibufAt a) ∧ t.resetLine = s.resetLine ∧ t.pending = s.pending ∧
    t.schedule = s.schedule ∧ t.responses = s.responses

/-- Every byte of OBUF reads as before. -/
def KeepsObuf (s t : State) : Prop := ∀ a, t.obufAt a = s.obufAt a

/-- OUT_LEN counts the output, OBUF holds it from byte 0, and every other byte of OBUF reads as before
(10_state.md R47). -/
def WroteOutput (out : List Byte) (s t : State) : Prop :=
  t.outLen.toNat = out.length ∧ (∀ i (h : i < out.length), t.obufAt i = out[i]) ∧
    ∀ i, out.length ≤ i → t.obufAt i = s.obufAt i

/-- No byte of OBUF has a known value (60_exceptions.md R197). -/
def ObufUnspecified (t : State) : Prop := ∀ a, Memory.read t.obuf a = none

/-- A buffer command that succeeds with this output (40_control.md R94, R96). -/
def SucceedsWith (i : Instr) (out : List Byte) (s : State) : Prop :=
  ∃ t, exec i s = .next t ∧ CompletedFlags s t ∧ t.status.err = false ∧ t.status.errcode = 0 ∧
    WroteOutput out s t ∧ t.result = 0 ∧ KeepsHostSide s t

/-- A buffer command that ends with an error of this code (R196, R197). -/
def FailsWith (i : Instr) (code : BitVec 4) (s : State) : Prop :=
  ∃ t, exec i s = .next t ∧ EndedWithCode code s t ∧ ObufUnspecified t ∧ KeepsHostSide s t

/-- A lookup command that succeeds with this value, or ends with an error of this code (R94, R196). -/
def LooksUp (i : Instr) (value : Nat) (s : State) : Prop :=
  ∃ t, exec i s = .next t ∧ CompletedFlags s t ∧ t.result.toNat = value ∧ t.outLen = s.outLen

/-- A lookup command that ends with an error of this code. -/
def LookupFails (i : Instr) (code : BitVec 4) (s : State) : Prop :=
  ∃ t, exec i s = .next t ∧ EndedWithCode code s t ∧ KeepsObuf s t

/-- The character codes of a string. -/
def codes (text : String) : List Byte := text.toList.map fun c => BitVec.ofNat 8 c.toNat

/-- The alphabet of 10_state.md R38. -/
def alphabet : String := "0123456789ABCDEFGHIJKLMNOPQRSTUVWXYZ $%*+-./:"

/-- The bytes of a list as numbers. -/
def values (bytes : List Byte) : List Nat := bytes.map BitVec.toNat

/-- The state after an access differs from the state before it in the response appended and nothing else. -/
def OnlyResponds (r : Response) (s t : State) : Prop := t = { s with responses := s.responses ++ [r] }

/-- A decoder given an encoder's output gives back the encoder's input, where both buffers fit
(42_triplet.md R139): `s` runs the encoder, `t` is what it leaves, and `u` runs the decoder on IBUF bytes
equal to `t`'s output. -/
def RoundTripOnTheEngine (encoder decoder : Instr) : Prop :=
  ∀ s t u : State, Accepted s → exec encoder s = .next t → t.status.done = true → Accepted u →
    u.inLen = t.outLen → (∀ k, k < t.outLen.toNat → u.ibufAt k = t.obufAt k) →
    t.outLen.toNat ≤ u.ibufSz.bytes → s.inLen.toNat ≤ u.obufSz.bytes → SucceedsWith decoder s.input u

/-- The pure function of a buffer command (40_control.md R96). -/
def contractOf : Instr → Option (List Byte → Option Nat → Res (List Byte))
  | .enc45 => some enc45
  | .dec45 => some dec45
  | .encqr => some encqr
  | .decqr => some decqr
  | .nop => none
  | .d2c _ => none
  | .c2d _ => none
  | .b2d _ => none
  | .d2b _ => none

/-- A buffer command that the host ran on these bytes has ended with this answer of its pure function:
nothing is pending, CMD, IN_LEN and IBUF hold the command and its input, and STATUS, OUT_LEN, RESULT and OBUF
are those of R94 or R196. The output is what READOUT gives, and what the words of OBUF spell. -/
def EndsAs (answer : Res (List Byte)) (i : Instr) (bytes : List Byte) (t : State) : Prop :=
  t.pending = [] ∧ t.cmd = encode i ∧ t.inLen.toNat = bytes.length ∧ t.input = bytes ∧
    (∀ out, answer = .ok out → t.status.word = 0x00000002 ∧ t.result = 0 ∧
      t.answer (rd 0x0000C) = some (BitVec.ofNat 32 out.length) ∧
      (∃ words, (readOutWords out.length).map (fun a => t.answer a) = words.map some ∧
        readOutBytes out.length words = out) ∧
      ∃ u, hostReadOut t = some (u, out)) ∧
    (∀ k, answer = .err k →
      t.status.word = 0x00000004 ||| (k.code.setWidth 32 <<< 8) ∧ t.outLen = 0 ∧ t.result = 0)

/-- The length of ENC45's output (42_triplet.md R125). -/
def enc45Length (n : Nat) : Nat := 3 * (n / 2) + 2 * (n % 2)

/-- The length of ENCQR's output (43_chunked.md R167). -/
def encqrLength (n : Nat) : Nat := 11 * (n / 7) + b2dRom.getD (n % 7) 0

end Sys2Proof.Claims

open Sys2Proof Sys2Proof.Machine Sys2Proof.Claims

/-! Encoding (30_encoding.md). -/

/-- 30_encoding.md R83. -/
def Obligations.SampleWordsDecode : Prop :=
  (encode .nop = 0x00000000 ∧ encode .enc45 = 0x00000001 ∧ encode .dec45 = 0x00000002 ∧
    encode .encqr = 0x00000003 ∧ encode .decqr = 0x00000004 ∧ encode (.d2c 44) = 0x002C0005 ∧
    encode (.c2d 0x61) = 0x00610006 ∧ encode (.c2d 0x100) = 0x01000006 ∧
    encode (.b2d 7) = 0x00070007 ∧ encode (.d2b 11) = 0x000B0008) ∧
  (decode 0x00000000 = .legal .nop ∧ decode 0x00000001 = .legal .enc45 ∧
    decode 0x00000002 = .legal .dec45 ∧ decode 0x00000003 = .legal .encqr ∧
    decode 0x00000004 = .legal .decqr ∧ decode 0x002C0005 = .legal (.d2c 44) ∧
    decode 0x00610006 = .legal (.c2d 0x61) ∧ decode 0x01000006 = .legal (.c2d 0x100) ∧
    decode 0x00070007 = .legal (.b2d 7) ∧ decode 0x000B0008 = .legal (.d2b 11)) ∧
  (decode 0x00000009 = .illegal .reservedOp ∧ decode 0x00000011 = .illegal .reservedBits ∧
    decode 0x00010001 = .illegal .immNotZero)

/-- Every well-formed command is read back from its word. -/
def Obligations.DecodeEncodeAgree : Prop :=
  ∀ i : Instr, i.wf = true → decode (encode i) = .legal i

/-- Every legal word is the word of the command it decodes to. -/
def Obligations.EncodeDecodeAgree : Prop :=
  ∀ (w : Word) (i : Instr), decode w = .legal i → i.wf = true ∧ encode i = w

/-- 30_encoding.md R74: a word is legal when it fits a row, the rows do not overlap, and the row's free
field is IMM. -/
def Obligations.LegalWordsFitOneRow : Prop :=
  (∀ (w : Word) (r : TableRow), r ∈ opcodeTable → r.fits w = true →
      ∃ i, decode w = .legal i ∧ mnemonicOf i = r.mnemonic ∧ immOf i = (w.extractLsb' 16 16).toNat) ∧
  (∀ w : Word, (∀ r, r ∈ opcodeTable → r.fits w = false) → ∃ y, decode w = .illegal y) ∧
  (∀ (w : Word) (r r' : TableRow), r ∈ opcodeTable → r' ∈ opcodeTable → r.fits w = true →
      r'.fits w = true → r = r')

/-- 30_encoding.md R76, on the fields as bit slices. -/
def Obligations.DecodeFollowsTheFields : Prop :=
  ∀ w : Word,
    let op := (w.extractLsb' 0 4).toNat
    let rsv := (w.extractLsb' 4 12).toNat
    let imm := (w.extractLsb' 16 16).toNat
    (9 ≤ op ∨ rsv ≠ 0 ∨ (op ≤ 4 ∧ imm ≠ 0) → ∃ y, decode w = .illegal y) ∧
    (¬(9 ≤ op ∨ rsv ≠ 0 ∨ (op ≤ 4 ∧ imm ≠ 0)) →
      ∃ i, decode w = .legal i ∧
        ["NOP", "ENC45", "DEC45", "ENCQR", "DECQR", "D2C", "C2D", "B2D", "D2B"][op]? =
          some (mnemonicOf i) ∧ immOf i = imm)

/-! The lookups (41_alphabet.md, 43_chunked.md). -/

/-- 10_state.md R38: the alphabet is exact and ordered, a bijection with 0 to 44, and any other character
has no digit value. -/
def Obligations.AlphabetIsExact : Prop :=
  alphaRom = codes alphabet ∧ alphaRom.length = 45 ∧ alphaRom.Nodup ∧
    (∀ x : Byte, x ∉ alphaRom → c2d x.toNat = .err .invalidCharacter)

/-- 41_alphabet.md R103. -/
def Obligations.AlphabetLookupsAreInverse : Prop :=
  (∀ d, d ≤ 44 → ∃ c, d2c d = .ok c ∧ c ∈ alphaRom ∧ c2d c.toNat = .ok d) ∧
  (∀ x : Byte, x ∈ alphaRom → ∃ d, c2d x.toNat = .ok d ∧ d2c d = .ok x) ∧
  (∀ d d' c, d2c d = .ok c → d2c d' = .ok c → d = d')

/-- 43_chunked.md R154. -/
def Obligations.ChunkTableLaws : Prop :=
  (∀ n, n ≤ 7 → ∃ d, b2d n = .ok d ∧ 256 ^ n ≤ 45 ^ d ∧ (d = 0 ∨ 45 ^ (d - 1) < 256 ^ n) ∧
    d2b d = .ok n) ∧
  (∀ n n' d d', n < n' → b2d n = .ok d → b2d n' = .ok d' → d < d') ∧
  (∀ m n, d2b m = .ok n ↔ n ≤ 7 ∧ b2d n = .ok m)

/-- 41_alphabet.md R102: D2C on every operand. -/
def Obligations.D2cGivesTheCharacter : Prop :=
  (∀ s imm, imm ≤ 44 → LooksUp (.d2c imm) (alphaRom.getD imm 0).toNat s) ∧
  (∀ s imm, 44 < imm → LookupFails (.d2c imm) 1 s) ∧
  (∀ s, LooksUp (.d2c 0) 0x30 s ∧ LooksUp (.d2c 36) 0x20 s ∧ LooksUp (.d2c 44) 0x3A s)

/-- 41_alphabet.md R106: C2D on every operand; no truncation to 8 bits. -/
def Obligations.C2dGivesTheDigit : Prop :=
  (∀ s d, d ≤ 44 → LooksUp (.c2d (alphaRom.getD d 0).toNat) d s) ∧
  (∀ s imm, (∀ d, d ≤ 44 → (alphaRom.getD d 0).toNat ≠ imm) → LookupFails (.c2d imm) 2 s) ∧
  (∀ s, LooksUp (.c2d 0x30) 0 s ∧ LooksUp (.c2d 0x20) 36 s ∧ LooksUp (.c2d 0x3A) 44 s ∧
    LookupFails (.c2d 0x61) 2 s ∧ LookupFails (.c2d 0) 2 s ∧ LookupFails (.c2d 0x130) 2 s)

/-- 43_chunked.md R150 to R153, 10_state.md R43, R44: B2D and D2B on every operand. -/
def Obligations.CountLookupsAnswer : Prop :=
  (∀ s, LooksUp (.b2d 0) 0 s ∧ LooksUp (.b2d 1) 2 s ∧ LooksUp (.b2d 2) 3 s ∧ LooksUp (.b2d 3) 5 s ∧
    LooksUp (.b2d 4) 6 s ∧ LooksUp (.b2d 5) 8 s ∧ LooksUp (.b2d 6) 9 s ∧ LooksUp (.b2d 7) 11 s) ∧
  (∀ s imm, 7 < imm → LookupFails (.b2d imm) 5 s) ∧
  (∀ s, LooksUp (.d2b 0) 0 s ∧ LooksUp (.d2b 2) 1 s ∧ LooksUp (.d2b 3) 2 s ∧ LooksUp (.d2b 5) 3 s ∧
    LooksUp (.d2b 6) 4 s ∧ LooksUp (.d2b 8) 5 s ∧ LooksUp (.d2b 9) 6 s ∧ LooksUp (.d2b 11) 7 s) ∧
  (∀ s imm, (imm = 1 ∨ imm = 4 ∨ imm = 7 ∨ imm = 10 ∨ 11 < imm) → LookupFails (.d2b imm) 5 s)

/-- 40_control.md R95: NOP completes in every state and changes only the flags (and the datapath, whose
values between commands are unspecified). -/
def Obligations.NopCompletes : Prop :=
  ∀ s, ∃ t, exec .nop s = .next t ∧ CompletedFlags s t ∧ t.outLen = s.outLen ∧ t.result = s.result ∧
    KeepsHostSide s t ∧ KeepsObuf s t

/-- The frame of NOP and the lookup commands: what they leave unchanged (R24 to R27, R58). A lookup command
writes RESULT on success; on an error OUT_LEN and RESULT take 0. -/
def Obligations.NopAndLookupFrame : Prop :=
  ∀ i s t, i.commandClass ≠ .buffer → exec i s = .next t →
    KeepsHostSide s t ∧ KeepsObuf s t ∧ t.status.dropped = s.status.dropped ∧
    (t.status.done = true → t.outLen = s.outLen ∧ t.status.err = s.status.err ∧
      t.status.errcode = s.status.errcode) ∧
    (t.status.done = false → t.outLen = 0 ∧ t.result = 0)

/-! The buffer commands (40_control.md R96, 42_triplet.md, 43_chunked.md). -/

/-- 42_triplet.md R120: ENC45 as the engine runs it is `enc45(in, OBUF_SIZE)` of R121. -/
def Obligations.Enc45MeetsItsContract : Prop :=
  decode 0x00000001 = .legal .enc45 ∧
  (∀ s, Accepted s → s.ibufSz.bytes < s.inLen.toNat → FailsWith .enc45 7 s) ∧
  (∀ s, Accepted s → s.inLen.toNat ≤ s.ibufSz.bytes → s.obufSz.bytes < enc45Length s.inLen.toNat →
    enc45 s.input (some s.obufSz.bytes) = .err .outputOverflow ∧ FailsWith .enc45 8 s) ∧
  (∀ s, Accepted s → s.inLen.toNat ≤ s.ibufSz.bytes → enc45Length s.inLen.toNat ≤ s.obufSz.bytes →
    ∃ out, enc45 s.input (some s.obufSz.bytes) = .ok out ∧ SucceedsWith .enc45 out s) ∧
  enc45 [65, 66] none = .ok [0x42, 0x42, 0x38]

/-- 42_triplet.md R130: DEC45 as the engine runs it is `dec45(in, OBUF_SIZE)` of R131. -/
def Obligations.Dec45MeetsItsContract : Prop :=
  decode 0x00000002 = .legal .dec45 ∧
  (∀ s, Accepted s → s.ibufSz.bytes < s.inLen.toNat → FailsWith .dec45 7 s) ∧
  (∀ s k, Accepted s → s.inLen.toNat ≤ s.ibufSz.bytes → dec45 s.input (some s.obufSz.bytes) = .err k →
    (k = .invalidCharacter ∨ k = .accumulatorOverflow ∨ k = .truncatedInput ∨ k = .outputOverflow) ∧
      FailsWith .dec45 k.code s) ∧
  (∀ s out, Accepted s → s.inLen.toNat ≤ s.ibufSz.bytes →
    dec45 s.input (some s.obufSz.bytes) = .ok out → SucceedsWith .dec45 out s) ∧
  dec45 (codes "QED8WEX0") none = .ok [0x69, 0x65, 0x74, 0x66, 0x21]

/-- 43_chunked.md R160: ENCQR as the engine runs it is `encqr(in, OBUF_SIZE)` of R161. -/
def Obligations.EncqrMeetsItsContract : Prop :=
  decode 0x00000003 = .legal .encqr ∧
  (∀ s, Accepted s → s.ibufSz.bytes < s.inLen.toNat → FailsWith .encqr 7 s) ∧
  (∀ s, Accepted s → s.inLen.toNat ≤ s.ibufSz.bytes → s.obufSz.bytes < encqrLength s.inLen.toNat →
    encqr s.input (some s.obufSz.bytes) = .err .outputOverflow ∧ FailsWith .encqr 8 s) ∧
  (∀ s, Accepted s → s.inLen.toNat ≤ s.ibufSz.bytes → encqrLength s.inLen.toNat ≤ s.obufSz.bytes →
    ∃ out, encqr s.input (some s.obufSz.bytes) = .ok out ∧ SucceedsWith .encqr out s) ∧
  encqr [65, 66] none = .ok (codes "8BB")

/-- 43_chunked.md R170: DECQR as the engine runs it is `decqr(in, OBUF_SIZE)` of R171. -/
def Obligations.DecqrMeetsItsContract : Prop :=
  decode 0x00000004 = .legal .decqr ∧
  (∀ s, Accepted s → s.ibufSz.bytes < s.inLen.toNat → FailsWith .decqr 7 s) ∧
  (∀ s k, Accepted s → s.inLen.toNat ≤ s.ibufSz.bytes → decqr s.input (some s.obufSz.bytes) = .err k →
    (k = .invalidCharacter ∨ k = .invalidChunkLength ∨ k = .outputOverflow) ∧
      FailsWith .decqr k.code s) ∧
  (∀ s out, Accepted s → s.inLen.toNat ≤ s.ibufSz.bytes →
    decqr s.input (some s.obufSz.bytes) = .ok out → SucceedsWith .decqr out s) ∧
  decqr (codes "8BB") none = .ok [65, 66]

/-- The frame of the buffer commands in every state: what they leave unchanged (10_state.md R25 to R27, R46,
R47). A success writes OUT_LEN and the OBUF bytes from OUT_POS = 0 up to OUT_LEN; an error leaves no byte of
OBUF known. -/
def Obligations.BufferCommandFrame : Prop :=
  ∀ i s t, i.commandClass = .buffer → s.dp.outPos = 0 → exec i s = .next t →
    KeepsHostSide s t ∧ t.status.dropped = s.status.dropped ∧
    (t.status.done = true → t.result = s.result ∧ t.status.err = s.status.err ∧
      t.status.errcode = s.status.errcode ∧ t.outLen.toNat ≤ s.obufSz.bytes ∧
      ∀ a, t.outLen.toNat ≤ a → t.obufAt a = s.obufAt a) ∧
    (t.status.done = false → t.outLen = 0 ∧ t.result = 0 ∧ ObufUnspecified t)

/-- 40_control.md R96, its last clause: the capacity is used for nothing but the overflow check. -/
def Obligations.CapacityOnlyCutsOff : Prop :=
  ∀ (f : List Byte → Option Nat → Res (List Byte)),
    (f = enc45 ∨ f = dec45 ∨ f = encqr ∨ f = decqr) → ∀ input cap out,
      f input (some cap) = .ok out ↔ f input none = .ok out ∧ out.length ≤ cap

/-- 42_triplet.md R123, R124: the value identity and the digit ranges of ENC45. -/
def Obligations.Enc45DigitsSpellTheValue : Prop :=
  (∀ a b : Byte, ∃ c d e, enc45 [a, b] none =
      .ok [alphaRom.getD c 0, alphaRom.getD d 0, alphaRom.getD e 0] ∧
    c ≤ 44 ∧ d ≤ 44 ∧ e ≤ 32 ∧ c + 45 * d + 2025 * e = a.toNat * 256 + b.toNat) ∧
  (∀ a : Byte, ∃ c d, enc45 [a] none = .ok [alphaRom.getD c 0, alphaRom.getD d 0] ∧
    c ≤ 44 ∧ d ≤ 5 ∧ c + 45 * d = a.toNat)

/-- 42_triplet.md R125: the output length of ENC45, and empty input. -/
def Obligations.Enc45OutputLength : Prop :=
  (∀ input, ∃ out, enc45 input none = .ok out ∧ out.length = enc45Length input.length) ∧
  enc45 [] none = .ok [] ∧
  (∀ s, Accepted s → s.inLen = 0 → ∃ t, exec .enc45 s = .next t ∧ t.outLen = 0 ∧ t.status.done = true)

/-- 42_triplet.md R126: a single byte. -/
def Obligations.Enc45SingleByte : Prop :=
  (∀ v : Byte, v.toNat ≤ 44 →
    enc45 [v] none = .ok [alphaRom.getD v.toNat 0, alphaRom.getD 0 0]) ∧
  (∀ v : Byte, 45 ≤ v.toNat → ∃ c, enc45 [v] none = .ok [c, alphaRom.getD (v.toNat / 45) 0])

/-- 42_triplet.md R133: which error DEC45 reports. The prefix `p` holds whole groups that convert. -/
def Obligations.Dec45ErrorOrder : Prop :=
  (∀ p rest g cap out k, p.length % 3 = 0 → dec45 p cap = .ok out →
    (g.length = 3 ∨ g.length < 3 ∧ rest = []) → dec45 g none = .err k →
    dec45 (p ++ g ++ rest) cap = .err k) ∧
  (∀ p x cap out, p.length % 3 = 0 → dec45 p cap = .ok out →
    dec45 (p ++ [x]) cap = .err .truncatedInput) ∧
  (∀ x y z : Byte, (x ∉ alphaRom ∨ y ∉ alphaRom ∨ z ∉ alphaRom) →
    dec45 [x, y, z] none = .err .invalidCharacter) ∧
  (∀ x y : Byte, (x ∉ alphaRom ∨ y ∉ alphaRom) → dec45 [x, y] none = .err .invalidCharacter) ∧
  (∀ (x y z : Byte) c d e, c2d x.toNat = .ok c → c2d y.toNat = .ok d → c2d z.toNat = .ok e →
    65535 < c + 45 * d + 2025 * e → dec45 [x, y, z] none = .err .accumulatorOverflow) ∧
  (∀ p rest g cap out o, p.length % 3 = 0 → dec45 p (some cap) = .ok out → 1 ≤ g.length →
    (g.length = 3 ∨ g.length < 3 ∧ rest = []) → dec45 g none = .ok o → cap < out.length + o.length →
    dec45 (p ++ g ++ rest) (some cap) = .err .outputOverflow)

/-- 42_triplet.md R136: the overflow bound. -/
def Obligations.Dec45OverflowBound : Prop :=
  (∀ (x y z : Byte) c d e, c2d x.toNat = .ok c → c2d y.toNat = .ok d → c2d z.toNat = .ok e →
    (dec45 [x, y, z] none = .err .accumulatorOverflow ↔ 65535 < c + 45 * d + 2025 * e) ∧
    c + 45 * d + 2025 * e ≤ 91124 ∧
    (33 ≤ e → dec45 [x, y, z] none = .err .accumulatorOverflow) ∧
    (e = 32 → (dec45 [x, y, z] none = .err .accumulatorOverflow ↔ 735 < c + 45 * d)) ∧
    (e ≤ 31 → dec45 [x, y, z] none ≠ .err .accumulatorOverflow)) ∧
  dec45 (codes "GGW") none = .err .accumulatorOverflow ∧ dec45 (codes "FGW") none = .ok [0xFF, 0xFF] ∧
  dec45 (codes "0HW") none = .err .accumulatorOverflow ∧
  dec45 (codes ":::") none = .err .accumulatorOverflow ∧
  charsToDigits (codes "GGW") = .ok [16, 16, 32] ∧ 16 + 45 * 16 + 2025 * 32 = 65536 ∧
  charsToDigits (codes "FGW") = .ok [15, 16, 32] ∧ charsToDigits (codes "0HW") = .ok [0, 17, 32] ∧
  charsToDigits (codes ":::") = .ok [44, 44, 44] ∧ 44 + 45 * 44 + 2025 * 44 = 91124

/-- 42_triplet.md R137: a final pair never overflows and gives its low byte. -/
def Obligations.Dec45FinalPair : Prop :=
  (∀ (x y : Byte) c d, c2d x.toNat = .ok c → c2d y.toNat = .ok d →
    c + 45 * d ≤ 2024 ∧ dec45 [x, y] none = .ok [BitVec.ofNat 8 ((c + 45 * d) % 256)]) ∧
  (∀ (a x y : Byte) c d, enc45 [a] none = .ok [x, y] → c2d x.toNat = .ok c → c2d y.toNat = .ok d →
    c + 45 * d ≤ 255) ∧
  dec45 (codes "ZZ") none = .ok [74] ∧ enc45 [74] none = .ok (codes "T1")

/-- 42_triplet.md R138: the length DEC45 gives, and that it takes no length of remainder 1 (R132). -/
def Obligations.Dec45Lengths : Prop :=
  (∀ input out, dec45 input none = .ok out → input.length % 3 ≠ 1 ∧
    out.length = 2 * (input.length / 3) + (if input.length % 3 = 2 then 1 else 0)) ∧
  dec45 [] none = .ok [] ∧
  (∀ s, Accepted s → s.inLen = 0 → ∃ t, exec .dec45 s = .next t ∧ t.outLen = 0 ∧ t.status.done = true)

/-- 42_triplet.md R139: the triplet round trip, unbounded and where the buffers fit; the converse fails. -/
def Obligations.TripletRoundTrip : Prop :=
  (∀ x s, enc45 x none = .ok s → dec45 s none = .ok x) ∧
  (∀ x s cap cap', enc45 x (some cap) = .ok s → x.length ≤ cap' → dec45 s (some cap') = .ok x) ∧
  RoundTripOnTheEngine .enc45 .dec45 ∧
  (∃ s x, dec45 s none = .ok x ∧ enc45 x none ≠ .ok s)

/-- 43_chunked.md R167: the output length of ENCQR. -/
def Obligations.EncqrOutputLength : Prop :=
  (∀ input, ∃ out, encqr input none = .ok out ∧ out.length = encqrLength input.length) ∧
  encqr (List.replicate 7 0) none = .ok (codes "00000000000") ∧ encqr [] none = .ok [] ∧
  (∀ s, Accepted s → s.inLen = 0 → ∃ t, exec .encqr s = .next t ∧ t.outLen = 0 ∧ t.status.done = true)

/-- 43_chunked.md R161, R164, R165: ENCQR spells each chunk's big-endian value, most significant digit first. -/
def Obligations.EncqrDigitsSpellTheValue : Prop :=
  ∀ chunk : List Byte, 1 ≤ chunk.length → chunk.length ≤ 7 → ∃ digits : List Nat,
    encqr chunk none = .ok (digits.map fun d => alphaRom.getD d 0) ∧ (∀ d, d ∈ digits → d ≤ 44) ∧
    digits.length = b2dRom.getD chunk.length 0 ∧ bigEndian 45 digits = bigEndian 256 (values chunk)

/-- 43_chunked.md R173: which error DECQR reports. The prefix `p` holds whole chunks that convert. -/
def Obligations.DecqrErrorOrder : Prop :=
  (∀ p g rest cap out, p.length % 11 = 0 → decqr p cap = .ok out → 1 ≤ g.length →
    (g.length = 11 ∨ g.length < 11 ∧ rest = []) → (∃ x, x ∈ g ∧ x ∉ alphaRom) →
    decqr (p ++ g ++ rest) cap = .err .invalidCharacter) ∧
  (∀ p g cap out, p.length % 11 = 0 → decqr p cap = .ok out →
    (g.length = 1 ∨ g.length = 4 ∨ g.length = 7 ∨ g.length = 10) → (∀ x, x ∈ g → x ∈ alphaRom) →
    decqr (p ++ g) cap = .err .invalidChunkLength) ∧
  (∀ p g rest cap out o, p.length % 11 = 0 → decqr p (some cap) = .ok out → 1 ≤ g.length →
    (g.length = 11 ∨ g.length < 11 ∧ rest = []) → decqr g none = .ok o → cap < out.length + o.length →
    decqr (p ++ g ++ rest) (some cap) = .err .outputOverflow) ∧
  decqr (codes "aAAA") none = .err .invalidCharacter ∧
  decqr (codes "AAAA") none = .err .invalidChunkLength

/-- 43_chunked.md R175, R177, R178: a chunk's value, the bytes it gives, and the high bits discarded. -/
def Obligations.DecqrBytesSpellTheValue : Prop :=
  (∀ (chunk : List Byte) digits nb, 1 ≤ chunk.length → chunk.length ≤ 11 →
    charsToDigits chunk = .ok digits → d2b chunk.length = .ok nb →
    ∃ out, decqr chunk none = .ok out ∧ out.length = nb ∧
      bigEndian 256 (values out) = bigEndian 45 digits % 256 ^ nb) ∧
  decqr (codes ":::::::::::") none = .ok [0x43, 0xBE, 0xFF, 0x21, 0x4C, 0x8B, 0x94] ∧
  decqr (codes "ZZ") none = .ok [74] ∧ decqr (codes "::") none = .ok [0xE8]

/-- 43_chunked.md R172, R179: the lengths DECQR takes and gives. -/
def Obligations.DecqrLengths : Prop :=
  (∀ input out, decqr input none = .ok out →
    ∃ n, d2b (input.length % 11) = .ok n ∧ out.length = 7 * (input.length / 11) + n) ∧
  decqr [] none = .ok [] ∧
  (∀ s, Accepted s → s.inLen = 0 → ∃ t, exec .decqr s = .next t ∧ t.outLen = 0 ∧ t.status.done = true)

/-- 43_chunked.md R180: the chunked round trip, unbounded and where the buffers fit. -/
def Obligations.ChunkedRoundTrip : Prop :=
  (∀ x s, encqr x none = .ok s → decqr s none = .ok x) ∧
  (∀ x s cap cap', encqr x (some cap) = .ok s → x.length ≤ cap' → decqr s (some cap') = .ok x) ∧
  RoundTripOnTheEngine .encqr .decqr

/-- 41_alphabet.md R107: no encoder raises INVALID_DIGIT_VALUE; only the D2C command does. -/
def Obligations.DigitErrorOnlyFromD2c : Prop :=
  (∀ input cap, enc45 input cap ≠ .err .invalidDigitValue ∧
    encqr input cap ≠ .err .invalidDigitValue) ∧
  (∀ i s t, Accepted s → exec i s = .next t → t.status.errcode = 1 → ∃ imm, i = .d2c imm)

/-- 70_reset_and_hazards.md R229, its positive part: pieces cut at group boundaries convert to the whole. -/
def Obligations.PiecesConvertToTheWhole : Prop :=
  (∀ x y sx sy, x.length % 2 = 0 → enc45 x none = .ok sx → enc45 y none = .ok sy →
    enc45 (x ++ y) none = .ok (sx ++ sy)) ∧
  (∀ x y sx sy, x.length % 7 = 0 → encqr x none = .ok sx → encqr y none = .ok sy →
    encqr (x ++ y) none = .ok (sx ++ sy)) ∧
  (∀ x y sx sy, x.length % 3 = 0 → dec45 x none = .ok sx → dec45 y none = .ok sy →
    dec45 (x ++ y) none = .ok (sx ++ sy)) ∧
  (∀ x y sx sy, x.length % 11 = 0 → decqr x none = .ok sx → decqr y none = .ok sy →
    decqr (x ++ y) none = .ok (sx ++ sy))

/-! The host bus (20_memory.md, 10_state.md). -/

/-- 20_memory.md R52, R53: a bad access completes with BUSERR, changes nothing, and a read returns 0. -/
def Obligations.BadAccessIsBusError : Prop :=
  (∀ (a : Access) (s : State),
    (a.size ≠ .bits32 ∨ a.offset.toNat % 4 ≠ 0 ∨
      (0x00020 ≤ a.offset.toNat ∧ a.offset.toNat ≤ 0x0FFFF) ∨ 0x30000 ≤ a.offset.toNat ∨
      (0x10000 + s.ibufSz.bytes ≤ a.offset.toNat ∧ a.offset.toNat ≤ 0x1FFFF) ∨
      (0x20000 + s.obufSz.bytes ≤ a.offset.toNat ∧ a.offset.toNat ≤ 0x2FFFF)) →
    OnlyResponds { code := .busErr, data := if a.op = .read then some 0 else none } s (s.busAccess a)) ∧
  (∀ (z : Config.BufSize) k, 4 * k < z.bytes ↔ 4 * k + 3 < z.bytes)

/-- 20_memory.md R54: the buffer windows and their byte lanes. -/
def Obligations.WindowsAreLittleEndian : Prop :=
  (∀ (s : State) (A : BitVec 18) k, 4 * k < s.ibufSz.bytes → A.toNat = 0x10000 + 4 * k →
    (∃ v : Word, OnlyResponds { code := .ok, data := some v } s (s.busAccess (rd A)) ∧
      v.extractLsb' 0 8 = s.ibufAt (4 * k) ∧ v.extractLsb' 8 8 = s.ibufAt (4 * k + 1) ∧
      v.extractLsb' 16 8 = s.ibufAt (4 * k + 2) ∧ v.extractLsb' 24 8 = s.ibufAt (4 * k + 3)) ∧
    (∀ d : Word, s.status.busy = false → ∃ m, s.busAccess (wr A d) =
        { s with ibuf := m, responses := s.responses ++ [{ code := .ok, data := none }] } ∧
      (s.busAccess (wr A d)).ibufAt (4 * k) = d.extractLsb' 0 8 ∧
      (s.busAccess (wr A d)).ibufAt (4 * k + 1) = d.extractLsb' 8 8 ∧
      (s.busAccess (wr A d)).ibufAt (4 * k + 2) = d.extractLsb' 16 8 ∧
      (s.busAccess (wr A d)).ibufAt (4 * k + 3) = d.extractLsb' 24 8 ∧
      (∀ a, (a < 4 * k ∨ 4 * k + 4 ≤ a) → (s.busAccess (wr A d)).ibufAt a = s.ibufAt a)) ∧
    (∀ d : Word, s.status.busy = true → ∀ a, (s.busAccess (wr A d)).ibufAt a = s.ibufAt a)) ∧
  (∀ (s : State) (A : BitVec 18) k, 4 * k < s.obufSz.bytes → A.toNat = 0x20000 + 4 * k →
    (s.status.busy = false → ∃ v : Word,
      OnlyResponds { code := .ok, data := some v } s (s.busAccess (rd A)) ∧
      v.extractLsb' 0 8 = s.obufAt (4 * k) ∧ v.extractLsb' 8 8 = s.obufAt (4 * k + 1) ∧
      v.extractLsb' 16 8 = s.obufAt (4 * k + 2) ∧ v.extractLsb' 24 8 = s.obufAt (4 * k + 3)) ∧
    (s.status.busy = true → ∃ v : Word,
      (s.busAccess (rd A)).responses = s.responses ++ [{ code := .ok, data := some v }]) ∧
    (∀ d : Word, OnlyResponds { code := .ok, data := none } s (s.busAccess (wr A d))))

/-- 10_state.md R22 to R29: what a read of each register returns. -/
def Obligations.RegisterReads : Prop :=
  ∀ s : State,
    OnlyResponds { code := .ok, data := some s.cmd } s (s.busAccess (rd 0x00000)) ∧
    OnlyResponds { code := .ok, data := some s.status.word } s (s.busAccess (rd 0x00004)) ∧
    OnlyResponds { code := .ok, data := some s.inLen } s (s.busAccess (rd 0x00008)) ∧
    OnlyResponds { code := .ok, data := some s.outLen } s (s.busAccess (rd 0x0000C)) ∧
    OnlyResponds { code := .ok, data := some s.result } s (s.busAccess (rd 0x00010)) ∧
    OnlyResponds { code := .ok, data := some 0x070B072D } s (s.busAccess (rd 0x00014)) ∧
    (∃ v : Word, OnlyResponds { code := .ok, data := some v } s (s.busAccess (rd 0x00018)) ∧
      v.toNat = s.ibufSz.bytes) ∧
    (∃ v : Word, OnlyResponds { code := .ok, data := some v } s (s.busAccess (rd 0x0001C)) ∧
      v.toNat = s.obufSz.bytes)

/-- 10_state.md R24, R30, 60_exceptions.md R190: where each flag stands in STATUS, every other bit 0, and the
error codes. -/
def Obligations.StatusWordAndErrorCodes : Prop :=
  (∀ f : Status, f.word.getLsbD 0 = f.busy ∧ f.word.getLsbD 1 = f.done ∧ f.word.getLsbD 2 = f.err ∧
    f.word.getLsbD 3 = f.dropped ∧ f.word.extractLsb' 4 4 = 0 ∧ f.word.extractLsb' 8 4 = f.errcode ∧
    f.word.extractLsb' 12 20 = 0) ∧
  ErrKind.invalidDigitValue.code = 1 ∧ ErrKind.invalidCharacter.code = 2 ∧
    ErrKind.accumulatorOverflow.code = 3 ∧ ErrKind.truncatedInput.code = 4 ∧
    ErrKind.invalidChunkLength.code = 5 ∧ ErrKind.illegalCommand.code = 6 ∧
    ErrKind.inputLengthRange.code = 7 ∧ ErrKind.outputOverflow.code = 8

/-- 10_state.md R31: a write to a read-only register or the OBUF window is ignored. -/
def Obligations.ReadOnlyWritesAreIgnored : Prop :=
  ∀ (s : State) (A : BitVec 18) (d : Word), A.toNat % 4 = 0 →
    (A.toNat = 0x00004 ∨ A.toNat = 0x0000C ∨ A.toNat = 0x00010 ∨ A.toNat = 0x00014 ∨
      A.toNat = 0x00018 ∨ A.toNat = 0x0001C ∨
      (0x20000 ≤ A.toNat ∧ A.toNat < 0x20000 + s.obufSz.bytes)) →
    OnlyResponds { code := .ok, data := none } s (s.busAccess (wr A d))

/-- 20_memory.md R57: a read changes no state of the block, and repeats its answer while BUSY = 0. -/
def Obligations.ReadsHaveNoSideEffect : Prop :=
  ∀ (a : Access) (s : State), a.op = .read →
    s.busAccess a = { s with responses := (s.busAccess a).responses, draws := (s.busAccess a).draws } ∧
    (s.status.busy = false → ∃ r, (s.busAccess a).responses = s.responses ++ [r] ∧
      ((s.busAccess a).busAccess a).responses = s.responses ++ [r, r])

/-- 70_reset_and_hazards.md R230: a write to CMD, IN_LEN or IBUF while BUSY = 1. -/
def Obligations.BusyWritesAreDropped : Prop :=
  ∀ (s : State) (A : BitVec 18) (d : Word), s.status.busy = true → A.toNat % 4 = 0 →
    (A.toNat = 0 ∨ A.toNat = 8 ∨ (0x10000 ≤ A.toNat ∧ A.toNat < 0x10000 + s.ibufSz.bytes)) →
    s.busAccess (wr A d) =
      { s with
        status := { s.status with dropped := true },
        responses := s.responses ++ [{ code := .ok, data := none }] }

/-- 70_reset_and_hazards.md R231, R232: reads while BUSY = 1. -/
def Obligations.BusyReads : Prop :=
  ∀ s : State, Accepted s →
    OnlyResponds { code := .ok, data := some 0 } s (s.busAccess (rd 0x0000C)) ∧
    OnlyResponds { code := .ok, data := some 0 } s (s.busAccess (rd 0x00010)) ∧
    (∃ v : Word, OnlyResponds { code := .ok, data := some v } s (s.busAccess (rd 0x00004)) ∧
      v.getLsbD 0 = true ∧ v.getLsbD 1 = false ∧ v.getLsbD 2 = false) ∧
    (∀ A : BitVec 18, A.toNat % 4 = 0 → 0x20000 ≤ A.toNat → A.toNat < 0x20000 + s.obufSz.bytes →
      ∃ v : Word, (s.busAccess (rd A)).responses = s.responses ++ [{ code := .ok, data := some v }])

/-- 10_state.md R25: IN_LEN takes all 32 bits while BUSY = 0. -/
def Obligations.InLenIsStoredWhole : Prop :=
  ∀ (s : State) (d : Word), s.status.busy = false →
    s.busAccess (wr 0x00008 d) =
      { s with inLen := d, responses := s.responses ++ [{ code := .ok, data := none }] }

/-! Steps. -/

/-- 40_control.md R90: acceptance of a command, or its refusal while BUSY = 1. -/
def Obligations.CmdWriteIsAccepted : Prop :=
  ∀ (s : State) (w : Word) (rest : List Input), s.resetLine = false →
    s.pending = .access (wr 0 w) :: rest →
    (s.status.busy = false → ∃ t, step s = .next t ∧ t.cmd = w ∧ t.dp.cur = w ∧ t.phase = .busy ∧
      t.status = { busy := true, done := false, err := false, dropped := false, errcode := 0 } ∧
      t.outLen = 0 ∧ t.result = 0 ∧ t.dp.inPos = 0 ∧ t.dp.outPos = 0 ∧
      t.inLen = s.inLen ∧ t.ibufSz = s.ibufSz ∧ t.obufSz = s.obufSz ∧
      (∀ a, t.ibufAt a = s.ibufAt a) ∧ (∀ a, t.obufAt a = s.obufAt a) ∧ t.pending = rest ∧
      t.responses = s.responses ++ [{ code := .ok, data := none }]) ∧
    (s.status.busy = true → s.engineMoves = false → ∃ t, step s = .next t ∧ t.cmd = s.cmd ∧
      t.dp = s.dp ∧ t.status = { s.status with dropped := true })

/-- A step of the engine runs the command that CUR decodes to, in the state with its turn used up; an
illegal word ends with ILLEGAL_COMMAND (40_control.md R91). -/
def Obligations.StepRunsTheDecodedCommand : Prop :=
  ∀ s : State, s.status.busy = true → s.resetLine = false →
    (s.pending = [] ∨ s.schedule = [] ∨ s.schedule.head? = some .engine) →
    (∀ i, decode s.dp.cur = .legal i → step s = exec i { s with schedule := s.schedule.tail }) ∧
    (∀ y, decode s.dp.cur = .illegal y →
      ∃ t, step s = .next t ∧ EndedWithCode 6 s t ∧ KeepsObuf s t)

/-- 30_encoding.md R78: an illegal word is accepted, stored in CMD and ends with ILLEGAL_COMMAND, whatever
IN_LEN and IBUF hold. -/
def Obligations.IllegalWordEndsWithError : Prop :=
  ∀ (s : State) (w : Word) y, decode w = .illegal y → s.status.busy = false → s.resetLine = false →
    s.pending = [.access (wr 0 w)] →
    ∃ t u, step s = .next t ∧ t.cmd = w ∧ t.status.busy = true ∧ step t = .next u ∧ u.cmd = w ∧
      u.status = { busy := false, done := false, err := true, dropped := false, errcode := 6 } ∧
      u.outLen = 0 ∧ u.result = 0 ∧ u.inLen = s.inLen ∧ (∀ a, u.ibufAt a = s.ibufAt a) ∧
      ∀ a, u.obufAt a = s.obufAt a

/-- 60_exceptions.md R196, R197: what an error leaves. -/
def Obligations.ErrorTermination : Prop :=
  ∀ i s t, Accepted s → exec i s = .next t → t.status.err = true →
    (∃ k : ErrKind, EndedWithCode k.code s t) ∧ t.phase = .idle ∧ t.status.done = false ∧
    t.status.dropped = s.status.dropped ∧ KeepsHostSide s t ∧
    (i.commandClass = .buffer → ObufUnspecified t) ∧ (i.commandClass ≠ .buffer → KeepsObuf s t)

/-- 40_control.md R97: the outcome of a command depends on nothing but CUR, and for a buffer command on
IN_LEN, the IBUF bytes below it and the two capacities. -/
def Obligations.OutcomeDependsOnInputOnly : Prop :=
  ∀ s s' t t', Accepted s → Accepted s' → s.dp.cur = s'.dp.cur →
    (∀ i, decode s.dp.cur = .legal i → i.commandClass = .buffer → s.inLen = s'.inLen ∧
      s.ibufSz = s'.ibufSz ∧ s.obufSz = s'.obufSz ∧
      ∀ k, k < s.inLen.toNat → s.ibufAt k = s'.ibufAt k) →
    engineStep s = .next t → engineStep s' = .next t' →
    t.status.done = t'.status.done ∧ t.status.err = t'.status.err ∧
      t.status.errcode = t'.status.errcode ∧ t.outLen = t'.outLen ∧ t.result = t'.result ∧
      ∀ k, k < t.outLen.toNat → t.obufAt k = t'.obufAt k

/-- 70_reset_and_hazards.md R220, 10_state.md R22: the state right after reset, as the host reads it. -/
def Obligations.ResetRegisterValues : Prop :=
  State.reset.readValue .cmd = 0 ∧ State.reset.readValue .status = 0 ∧
    State.reset.readValue .inLen = 0 ∧ State.reset.readValue .outLen = 0 ∧
    State.reset.readValue .result = 0 ∧ State.reset.readValue .id = 0x070B072D ∧
    (State.reset.readValue .ibufSz).toNat = Config.ibufSize.bytes ∧
    (State.reset.readValue .obufSz).toNat = Config.obufSize.bytes ∧ State.reset.phase = .idle ∧
    (∀ a, Memory.read State.reset.ibuf a = none) ∧ ∀ a, Memory.read State.reset.obuf a = none

/-- 70_reset_and_hazards.md R220 to R223, R225: asserting reset in any state, a running command included;
releasing it, which changes the line and nothing else; and no other step changes the line. -/
def Obligations.AssertingResetAbandons : Prop :=
  (∀ (s : State) (rest : List Input), s.engineMoves = false → s.pending = .assertReset :: rest →
    ∃ t, step s = .next t ∧ t.cmd = 0 ∧ t.status.word = 0 ∧ t.inLen = 0 ∧ t.outLen = 0 ∧ t.result = 0 ∧
      t.ibufSz = s.ibufSz ∧ t.obufSz = s.obufSz ∧ t.phase = .idle ∧
      (∀ a, Memory.read t.ibuf a = none) ∧ (∀ a, Memory.read t.obuf a = none) ∧
      t.responses = s.responses ∧ t.engineMoves = false ∧ t.resetLine = true ∧ t.pending = rest) ∧
  (∀ (s : State) (rest : List Input), s.engineMoves = false → s.pending = .releaseReset :: rest →
    ∃ t, step s = .next t ∧
      t = { s with resetLine := false, pending := rest, schedule := t.schedule } ∧
      (s.status.busy = false → t.schedule = s.schedule)) ∧
  (∀ s t : State, step s = .next t →
    (s.engineMoves = true ∨
      (s.pending.head? ≠ some .assertReset ∧ s.pending.head? ≠ some .releaseReset)) →
    t.resetLine = s.resetLine)

/-- The invariant holds right after reset. -/
def Obligations.ResetMeetsTheInvariant : Prop := State.reset.Inv

/-- Every step keeps the invariant (10_state.md R24 to R27, R36, R46, R47). -/
def Obligations.StepKeepsTheInvariant : Prop :=
  ∀ s t, s.Inv → step s = .next t → t.Inv

/-- 40_control.md R92, 70_reset_and_hazards.md R228: every accepted command ends. -/
def Obligations.EveryCommandEnds : Prop :=
  ∀ s : State, s.status.busy = true → s.resetLine = false →
    ∃ k t, k ≤ s.schedule.length + 1 ∧ Sys2Proof.core.run k s = .next t ∧ t.status.busy = false

/-- 70_reset_and_hazards.md R223: a step goes on except at a host access while reset is asserted. -/
def Obligations.OnlyResetStopsTheHost : Prop :=
  ∀ s : State,
    ((∃ a rest, s.pending = .access a :: rest) ∧ s.resetLine = true →
      step s = .fault .accessDuringReset) ∧
    (¬((∃ a rest, s.pending = .access a :: rest) ∧ s.resetLine = true) → s.StepsOn)

/-- 10_state.md R32: the events that write the flags. -/
def Obligations.FlagsAreWrittenByEvents : Prop :=
  ∀ s t, step s = .next t →
    t.status = s.status ∨
    (s.status.busy = false ∧
      t.status = { busy := true, done := false, err := false, dropped := false, errcode := 0 }) ∨
    (s.status.busy = true ∧ t.status = { s.status with busy := false, done := true }) ∨
    (s.status.busy = true ∧ ∃ k : ErrKind,
      t.status = { s.status with busy := false, done := false, err := true, errcode := k.code }) ∨
    (s.status.busy = true ∧ t.status = { s.status with dropped := true }) ∨
    (t.resetLine = true ∧ t.status.word = 0)

/-- 10_state.md R25, R29, R46, R47: only the host writes CMD, IN_LEN and IBUF; only the engine writes OBUF;
nothing writes the capacities. -/
def Obligations.WhoWritesWhat : Prop :=
  ∀ s t, step s = .next t →
    t.ibufSz = s.ibufSz ∧ t.obufSz = s.obufSz ∧
    (s.engineMoves = true → t.cmd = s.cmd ∧ t.inLen = s.inLen ∧ ∀ a, t.ibufAt a = s.ibufAt a) ∧
    (s.engineMoves = false → s.pending.head? ≠ some .assertReset → ∀ a, t.obufAt a = s.obufAt a)

/-- 20_memory.md R50: accesses are performed one at a time in issue order, each answered once. -/
def Obligations.AccessesAreAnsweredInOrder : Prop :=
  ∀ s t, step s = .next t →
    (s.engineMoves = true → t.pending = s.pending ∧ t.responses = s.responses) ∧
    (s.engineMoves = false → t.pending = s.pending.tail) ∧
    (∀ a rest, s.engineMoves = false → s.pending = .access a :: rest →
      ∃ r, t.responses = s.responses ++ [r] ∧ (r.data.isSome = true ↔ a.op = .read))

/-- 95_test_vectors.md P4, part B: a NOP written right after ENC45 has the two allowed outcomes, and the
turns decide which. -/
def Obligations.EarlySecondCommand : Prop :=
  ∀ s : State, s.Inv → s.status.busy = false → s.resetLine = false → s.inLen = 2 →
    s.ibufAt 0 = 0x41 → s.ibufAt 1 = 0x42 →
    s.pending = [.access (wr 0 (encode .enc45)), .access (wr 0 (encode .nop))] →
    (s.schedule.head? = some .host → ∃ t, Sys2Proof.core.run 3 s = .next t ∧
      t.status.word = 0x0000000A ∧ t.outLen = 3 ∧ t.cmd = 0x00000001 ∧ t.result = 0 ∧ t.inLen = 2 ∧
      t.obufAt 0 = 0x42 ∧ t.obufAt 1 = 0x42 ∧ t.obufAt 2 = 0x38) ∧
    (s.schedule.head? ≠ some .host → ∃ t, Sys2Proof.core.run 4 s = .next t ∧
      t.status.word = 0x00000002 ∧ t.outLen = 0 ∧ t.cmd = 0x00000000 ∧ t.result = 0 ∧ t.inLen = 2 ∧
      t.obufAt 0 = 0x42 ∧ t.obufAt 1 = 0x42 ∧ t.obufAt 2 = 0x38)

/-- 30_encoding.md R82 and 70_reset_and_hazards.md R226, R228. The host's WAIT ends in every state with reset
released and no input pending, busy or not, on a STATUS word whose bit 0 is 0. The host loads any input that
fits and runs any buffer command, from any idle state: as pending inputs, one step for each access and one of
the engine later the command has ended with what its pure function gives for those bytes; as the program
LOADIN, RUN, WAIT, and READOUT after it, whatever the turns, the host gets the same outcome, and READOUT gives
the output. -/
def Obligations.ProtocolConverts : Prop :=
  (∀ s : State, s.resetLine = false → s.pending = [] →
    ∃ t st, hostWait s = some t ∧ t.pending = [] ∧ t.status.busy = false ∧
      t.responses.getLast? = some { code := .ok, data := some st } ∧ st = t.status.word ∧
      waitEnds st = true) ∧
  (∀ (i : Instr) f (s : State) (bytes : List Byte), contractOf i = some f → s.Inv →
    s.status.busy = false → s.resetLine = false → bytes.length ≤ s.ibufSz.bytes →
    (s.pending = (loadIn bytes ++ [runCommand i]).map .access →
      ∃ t, Sys2Proof.core.run (s.pending.length + 1) s = .next t ∧
        (∃ st, t.answer waitRead = some st ∧ waitEnds st = true) ∧
        EndsAs (f bytes (some s.obufSz.bytes)) i bytes t) ∧
    (s.pending = [] →
      ∃ r, s.runProgram [.loadIn bytes, .run i, .wait] = some r ∧
        EndsAs (f bytes (some s.obufSz.bytes)) i bytes r.machine))
end

