-- ==== Sys2Proof/Laws/Memory.lean ====
section
/-! SUPPORT. The laws of the buffers' bytes: a read after a write, and the canonical form. -/
namespace Sys2Proof.Machine

@[simp] theorem Memory.read_nil (a : Nat) : Memory.read [] a = none := rfl

theorem Memory.read_write (m : Memory) (a : Nat) (b : Byte) (c : Nat) :
    Memory.read (Memory.write m a b) c = if c = a then some b else Memory.read m c := by
  induction m with
  | nil => rfl
  | cons cell rest ih =>
    obtain ⟨x, v⟩ := cell
    simp only [Memory.write]
    split
    · rfl
    · split
      · subst_vars
        simp only [Memory.read]
        split <;> rfl
      · simp only [Memory.read, ih]
        by_cases hx : c = x
        · subst hx
          rw [if_pos rfl, if_neg (by omega), if_pos rfl]
        · simp [hx]

@[simp] theorem Memory.read_write_same (m : Memory) (a : Nat) (b : Byte) :
    Memory.read (Memory.write m a b) a = some b := by simp [Memory.read_write]

theorem Memory.read_write_other (m : Memory) {a c : Nat} (b : Byte) (h : c ≠ a) :
    Memory.read (Memory.write m a b) c = Memory.read m c := by simp [Memory.read_write, h]

theorem Memory.risesFrom_mono {m : Memory} {low low' : Nat} (h : low' ≤ low)
    (hm : Memory.risesFrom low m = true) : Memory.risesFrom low' m = true := by
  cases m with
  | nil => rfl
  | cons cell rest =>
    simp only [Memory.risesFrom, Bool.and_eq_true, decide_eq_true_eq] at hm ⊢
    exact ⟨by omega, hm.2⟩

theorem Memory.risesFrom_write {m : Memory} {low a : Nat} (b : Byte) (ha : low ≤ a)
    (hm : Memory.risesFrom low m = true) : Memory.risesFrom low (Memory.write m a b) = true := by
  induction m generalizing low with
  | nil => simp [Memory.write, Memory.risesFrom, ha]
  | cons cell rest ih =>
    obtain ⟨x, v⟩ := cell
    simp only [Memory.risesFrom, Bool.and_eq_true, decide_eq_true_eq] at hm
    simp only [Memory.write]
    split
    · simp only [Memory.risesFrom, Bool.and_eq_true, decide_eq_true_eq]
      exact ⟨ha, by omega, hm.2⟩
    · split
      · subst_vars
        simp only [Memory.risesFrom, Bool.and_eq_true, decide_eq_true_eq]
        exact hm
      · simp only [Memory.risesFrom, Bool.and_eq_true, decide_eq_true_eq]
        exact ⟨hm.1, ih (by omega) hm.2⟩

/-- Every store keeps the canonical form. -/
theorem Memory.wf_write {m : Memory} (a : Nat) (b : Byte) (hm : Memory.wf m = true) :
    Memory.wf (Memory.write m a b) = true :=
  Memory.risesFrom_write b (Nat.zero_le a) hm

@[simp] theorem Memory.wf_nil : Memory.wf [] = true := rfl

@[simp] theorem Memory.within_nil (size : Nat) : Memory.within size [] = true := rfl

theorem Memory.within_write {m : Memory} {size a : Nat} (b : Byte) (ha : a < size)
    (hm : Memory.within size m = true) : Memory.within size (Memory.write m a b) = true := by
  induction m with
  | nil => simp [Memory.write, Memory.within, ha]
  | cons cell rest ih =>
    obtain ⟨x, v⟩ := cell
    simp only [Memory.within, List.all_cons, Bool.and_eq_true, decide_eq_true_eq] at hm ih
    simp only [Memory.write]
    split
    · simp [Memory.within, ha, hm]
    · split
      · simp [Memory.within, ha, hm]
      · have := ih hm.2
        simp [Memory.within, hm.1, this]

/-- In the canonical form nothing is listed below the lower bound. -/
theorem Memory.read_below {m : Memory} {low a : Nat} (hm : Memory.risesFrom low m = true) (ha : a < low) :
    Memory.read m a = none := by
  induction m generalizing low with
  | nil => rfl
  | cons cell rest ih =>
    obtain ⟨x, v⟩ := cell
    simp only [Memory.risesFrom, Bool.and_eq_true, decide_eq_true_eq] at hm
    rw [Memory.read, if_neg (by omega), ih hm.2 (by omega)]

/-- Two canonical memories that read the same everywhere are the same data. -/
theorem Memory.ext_read {m m' : Memory} {low : Nat} (hm : Memory.risesFrom low m = true)
    (hm' : Memory.risesFrom low m' = true) (h : ∀ a, Memory.read m a = Memory.read m' a) : m = m' := by
  induction m generalizing m' low with
  | nil =>
    cases m' with
    | nil => rfl
    | cons cell rest =>
      have := h cell.1
      simp [Memory.read] at this
  | cons cell rest ih =>
    obtain ⟨x, v⟩ := cell
    cases m' with
    | nil =>
      have := h x
      simp [Memory.read] at this
    | cons cell' rest' =>
      obtain ⟨x', v'⟩ := cell'
      simp only [Memory.risesFrom, Bool.and_eq_true, decide_eq_true_eq] at hm hm'
      have hx : x = x' := by
        rcases Nat.lt_trichotomy x x' with hlt | heq | hgt
        · have := h x
          simp only [Memory.read, if_true] at this
          rw [if_neg (by omega), Memory.read_below hm'.2 (by omega)] at this
          cases this
        · exact heq
        · have := h x'
          simp only [Memory.read, if_true] at this
          rw [if_neg (by omega), Memory.read_below hm.2 (by omega)] at this
          cases this
      subst hx
      have hv : v = v' := by
        have := h x
        simpa [Memory.read] using this
      subst hv
      have : rest = rest' := by
        refine ih hm.2 hm'.2 fun a => ?_
        by_cases ha : a = x
        · subst ha
          rw [Memory.read_below hm.2 (by omega), Memory.read_below hm'.2 (by omega)]
        · simpa [Memory.read, ha] using h a
      rw [this]

/-- The sizes of R8. -/
theorem bytes_bounds (z : Config.BufSize) :
    4 ≤ z.bytes ∧ z.bytes ≤ 65536 ∧ z.bytes % 4 = 0 := by
  have := z.wordsLessOne.isLt
  unfold Config.BufSize.bytes
  omega

end Sys2Proof.Machine
end

