-- ==== Sys2Proof/Laws/State.lean ====
section
/-! SUPPORT. For every named update of State, what it leaves in each field: one lemma a field, true by rfl. -/
namespace Sys2Proof.Machine

variable (s : State)

/-! `State.accept` -/
@[simp] theorem State.accept_cmd (w : Word) : (s.accept w).cmd = w := rfl
@[simp] theorem State.accept_status (w : Word) : (s.accept w).status = s.status.accepted := rfl
@[simp] theorem State.accept_inLen (w : Word) : (s.accept w).inLen = s.inLen := rfl
@[simp] theorem State.accept_outLen (w : Word) : (s.accept w).outLen = 0 := rfl
@[simp] theorem State.accept_result (w : Word) : (s.accept w).result = 0 := rfl
@[simp] theorem State.accept_ibufSz (w : Word) : (s.accept w).ibufSz = s.ibufSz := rfl
@[simp] theorem State.accept_obufSz (w : Word) : (s.accept w).obufSz = s.obufSz := rfl
@[simp] theorem State.accept_ibuf (w : Word) : (s.accept w).ibuf = s.ibuf := rfl
@[simp] theorem State.accept_obuf (w : Word) : (s.accept w).obuf = s.obuf := rfl
@[simp] theorem State.accept_dp (w : Word) :
    (s.accept w).dp =
      { s.dp with cur := w, inPos := 0, outPos := 0 } := rfl
@[simp] theorem State.accept_resetLine (w : Word) : (s.accept w).resetLine = s.resetLine := rfl
@[simp] theorem State.accept_pending (w : Word) : (s.accept w).pending = s.pending := rfl
@[simp] theorem State.accept_schedule (w : Word) : (s.accept w).schedule = s.schedule := rfl
@[simp] theorem State.accept_responses (w : Word) : (s.accept w).responses = s.responses := rfl
@[simp] theorem State.accept_ibufEpoch (w : Word) : (s.accept w).ibufEpoch = s.ibufEpoch := rfl
@[simp] theorem State.accept_obufEpoch (w : Word) : (s.accept w).obufEpoch = s.obufEpoch := rfl
@[simp] theorem State.accept_draws (w : Word) : (s.accept w).draws = s.draws := rfl

/-! `State.release` -/
@[simp] theorem State.release_cmd : (s.release).cmd = s.cmd := rfl
@[simp] theorem State.release_status : (s.release).status = s.status := rfl
@[simp] theorem State.release_inLen : (s.release).inLen = s.inLen := rfl
@[simp] theorem State.release_outLen : (s.release).outLen = s.outLen := rfl
@[simp] theorem State.release_result : (s.release).result = s.result := rfl
@[simp] theorem State.release_ibufSz : (s.release).ibufSz = s.ibufSz := rfl
@[simp] theorem State.release_obufSz : (s.release).obufSz = s.obufSz := rfl
@[simp] theorem State.release_ibuf : (s.release).ibuf = s.ibuf := rfl
@[simp] theorem State.release_obuf : (s.release).obuf = s.obuf := rfl
@[simp] theorem State.release_dp : (s.release).dp = Datapath.unspecified s.draws s.inLen.toNat s.obufSz.bytes := rfl
@[simp] theorem State.release_resetLine : (s.release).resetLine = s.resetLine := rfl
@[simp] theorem State.release_pending : (s.release).pending = s.pending := rfl
@[simp] theorem State.release_schedule : (s.release).schedule = s.schedule := rfl
@[simp] theorem State.release_responses : (s.release).responses = s.responses := rfl
@[simp] theorem State.release_ibufEpoch : (s.release).ibufEpoch = s.ibufEpoch := rfl
@[simp] theorem State.release_obufEpoch : (s.release).obufEpoch = s.obufEpoch := rfl
@[simp] theorem State.release_draws : (s.release).draws = s.draws + 1 := rfl

/-! `State.complete` -/
@[simp] theorem State.complete_cmd : (s.complete).cmd = s.cmd := rfl
@[simp] theorem State.complete_status : (s.complete).status = s.status.completed := rfl
@[simp] theorem State.complete_inLen : (s.complete).inLen = s.inLen := rfl
@[simp] theorem State.complete_outLen : (s.complete).outLen = s.outLen := rfl
@[simp] theorem State.complete_result : (s.complete).result = s.result := rfl
@[simp] theorem State.complete_ibufSz : (s.complete).ibufSz = s.ibufSz := rfl
@[simp] theorem State.complete_obufSz : (s.complete).obufSz = s.obufSz := rfl
@[simp] theorem State.complete_ibuf : (s.complete).ibuf = s.ibuf := rfl
@[simp] theorem State.complete_obuf : (s.complete).obuf = s.obuf := rfl
@[simp] theorem State.complete_dp : (s.complete).dp = Datapath.unspecified s.draws s.inLen.toNat s.obufSz.bytes := rfl
@[simp] theorem State.complete_resetLine : (s.complete).resetLine = s.resetLine := rfl
@[simp] theorem State.complete_pending : (s.complete).pending = s.pending := rfl
@[simp] theorem State.complete_schedule : (s.complete).schedule = s.schedule := rfl
@[simp] theorem State.complete_responses : (s.complete).responses = s.responses := rfl
@[simp] theorem State.complete_ibufEpoch : (s.complete).ibufEpoch = s.ibufEpoch := rfl
@[simp] theorem State.complete_obufEpoch : (s.complete).obufEpoch = s.obufEpoch := rfl
@[simp] theorem State.complete_draws : (s.complete).draws = s.draws + 1 := rfl

/-! `State.completeLookup` -/
@[simp] theorem State.completeLookup_cmd (v : Byte) : (s.completeLookup v).cmd = s.cmd := rfl
@[simp] theorem State.completeLookup_status (v : Byte) : (s.completeLookup v).status = s.status.completed := rfl
@[simp] theorem State.completeLookup_inLen (v : Byte) : (s.completeLookup v).inLen = s.inLen := rfl
@[simp] theorem State.completeLookup_outLen (v : Byte) : (s.completeLookup v).outLen = s.outLen := rfl
@[simp] theorem State.completeLookup_result (v : Byte) : (s.completeLookup v).result = v.setWidth 32 := rfl
@[simp] theorem State.completeLookup_ibufSz (v : Byte) : (s.completeLookup v).ibufSz = s.ibufSz := rfl
@[simp] theorem State.completeLookup_obufSz (v : Byte) : (s.completeLookup v).obufSz = s.obufSz := rfl
@[simp] theorem State.completeLookup_ibuf (v : Byte) : (s.completeLookup v).ibuf = s.ibuf := rfl
@[simp] theorem State.completeLookup_obuf (v : Byte) : (s.completeLookup v).obuf = s.obuf := rfl
@[simp] theorem State.completeLookup_dp (v : Byte) : (s.completeLookup v).dp = Datapath.unspecified s.draws s.inLen.toNat s.obufSz.bytes := rfl
@[simp] theorem State.completeLookup_resetLine (v : Byte) : (s.completeLookup v).resetLine = s.resetLine := rfl
@[simp] theorem State.completeLookup_pending (v : Byte) : (s.completeLookup v).pending = s.pending := rfl
@[simp] theorem State.completeLookup_schedule (v : Byte) : (s.completeLookup v).schedule = s.schedule := rfl
@[simp] theorem State.completeLookup_responses (v : Byte) : (s.completeLookup v).responses = s.responses := rfl
@[simp] theorem State.completeLookup_ibufEpoch (v : Byte) : (s.completeLookup v).ibufEpoch = s.ibufEpoch := rfl
@[simp] theorem State.completeLookup_obufEpoch (v : Byte) : (s.completeLookup v).obufEpoch = s.obufEpoch := rfl
@[simp] theorem State.completeLookup_draws (v : Byte) : (s.completeLookup v).draws = s.draws + 1 := rfl

/-! `State.completeBuffer` -/
@[simp] theorem State.completeBuffer_cmd : (s.completeBuffer).cmd = s.cmd := rfl
@[simp] theorem State.completeBuffer_status : (s.completeBuffer).status = s.status.completed := rfl
@[simp] theorem State.completeBuffer_inLen : (s.completeBuffer).inLen = s.inLen := rfl
@[simp] theorem State.completeBuffer_outLen : (s.completeBuffer).outLen = s.dp.outPos.setWidth 32 := rfl
@[simp] theorem State.completeBuffer_result : (s.completeBuffer).result = s.result := rfl
@[simp] theorem State.completeBuffer_ibufSz : (s.completeBuffer).ibufSz = s.ibufSz := rfl
@[simp] theorem State.completeBuffer_obufSz : (s.completeBuffer).obufSz = s.obufSz := rfl
@[simp] theorem State.completeBuffer_ibuf : (s.completeBuffer).ibuf = s.ibuf := rfl
@[simp] theorem State.completeBuffer_obuf : (s.completeBuffer).obuf = s.obuf := rfl
@[simp] theorem State.completeBuffer_dp : (s.completeBuffer).dp = Datapath.unspecified s.draws s.inLen.toNat s.obufSz.bytes := rfl
@[simp] theorem State.completeBuffer_resetLine : (s.completeBuffer).resetLine = s.resetLine := rfl
@[simp] theorem State.completeBuffer_pending : (s.completeBuffer).pending = s.pending := rfl
@[simp] theorem State.completeBuffer_schedule : (s.completeBuffer).schedule = s.schedule := rfl
@[simp] theorem State.completeBuffer_responses : (s.completeBuffer).responses = s.responses := rfl
@[simp] theorem State.completeBuffer_ibufEpoch : (s.completeBuffer).ibufEpoch = s.ibufEpoch := rfl
@[simp] theorem State.completeBuffer_obufEpoch : (s.completeBuffer).obufEpoch = s.obufEpoch := rfl
@[simp] theorem State.completeBuffer_draws : (s.completeBuffer).draws = s.draws + 1 := rfl

/-! `State.raise` -/
@[simp] theorem State.raise_cmd (k : ErrKind) : (s.raise k).cmd = s.cmd := rfl
@[simp] theorem State.raise_status (k : ErrKind) : (s.raise k).status = s.status.failed k := rfl
@[simp] theorem State.raise_inLen (k : ErrKind) : (s.raise k).inLen = s.inLen := rfl
@[simp] theorem State.raise_outLen (k : ErrKind) : (s.raise k).outLen = 0 := rfl
@[simp] theorem State.raise_result (k : ErrKind) : (s.raise k).result = 0 := rfl
@[simp] theorem State.raise_ibufSz (k : ErrKind) : (s.raise k).ibufSz = s.ibufSz := rfl
@[simp] theorem State.raise_obufSz (k : ErrKind) : (s.raise k).obufSz = s.obufSz := rfl
@[simp] theorem State.raise_ibuf (k : ErrKind) : (s.raise k).ibuf = s.ibuf := rfl
@[simp] theorem State.raise_obuf (k : ErrKind) : (s.raise k).obuf = s.obuf := rfl
@[simp] theorem State.raise_dp (k : ErrKind) : (s.raise k).dp = Datapath.unspecified s.draws s.inLen.toNat s.obufSz.bytes := rfl
@[simp] theorem State.raise_resetLine (k : ErrKind) : (s.raise k).resetLine = s.resetLine := rfl
@[simp] theorem State.raise_pending (k : ErrKind) : (s.raise k).pending = s.pending := rfl
@[simp] theorem State.raise_schedule (k : ErrKind) : (s.raise k).schedule = s.schedule := rfl
@[simp] theorem State.raise_responses (k : ErrKind) : (s.raise k).responses = s.responses := rfl
@[simp] theorem State.raise_ibufEpoch (k : ErrKind) : (s.raise k).ibufEpoch = s.ibufEpoch := rfl
@[simp] theorem State.raise_obufEpoch (k : ErrKind) : (s.raise k).obufEpoch = s.obufEpoch := rfl
@[simp] theorem State.raise_draws (k : ErrKind) : (s.raise k).draws = s.draws + 1 := rfl

/-! `State.forgetObuf` -/
@[simp] theorem State.forgetObuf_cmd : (s.forgetObuf).cmd = s.cmd := rfl
@[simp] theorem State.forgetObuf_status : (s.forgetObuf).status = s.status := rfl
@[simp] theorem State.forgetObuf_inLen : (s.forgetObuf).inLen = s.inLen := rfl
@[simp] theorem State.forgetObuf_outLen : (s.forgetObuf).outLen = s.outLen := rfl
@[simp] theorem State.forgetObuf_result : (s.forgetObuf).result = s.result := rfl
@[simp] theorem State.forgetObuf_ibufSz : (s.forgetObuf).ibufSz = s.ibufSz := rfl
@[simp] theorem State.forgetObuf_obufSz : (s.forgetObuf).obufSz = s.obufSz := rfl
@[simp] theorem State.forgetObuf_ibuf : (s.forgetObuf).ibuf = s.ibuf := rfl
@[simp] theorem State.forgetObuf_obuf : (s.forgetObuf).obuf = [] := rfl
@[simp] theorem State.forgetObuf_dp : (s.forgetObuf).dp = s.dp := rfl
@[simp] theorem State.forgetObuf_resetLine : (s.forgetObuf).resetLine = s.resetLine := rfl
@[simp] theorem State.forgetObuf_pending : (s.forgetObuf).pending = s.pending := rfl
@[simp] theorem State.forgetObuf_schedule : (s.forgetObuf).schedule = s.schedule := rfl
@[simp] theorem State.forgetObuf_responses : (s.forgetObuf).responses = s.responses := rfl
@[simp] theorem State.forgetObuf_ibufEpoch : (s.forgetObuf).ibufEpoch = s.ibufEpoch := rfl
@[simp] theorem State.forgetObuf_obufEpoch : (s.forgetObuf).obufEpoch = s.draws := rfl
@[simp] theorem State.forgetObuf_draws : (s.forgetObuf).draws = s.draws := rfl

/-! `State.raiseBuffer` -/
@[simp] theorem State.raiseBuffer_cmd (k : ErrKind) : (s.raiseBuffer k).cmd = s.cmd := rfl
@[simp] theorem State.raiseBuffer_status (k : ErrKind) : (s.raiseBuffer k).status = s.status.failed k := rfl
@[simp] theorem State.raiseBuffer_inLen (k : ErrKind) : (s.raiseBuffer k).inLen = s.inLen := rfl
@[simp] theorem State.raiseBuffer_outLen (k : ErrKind) : (s.raiseBuffer k).outLen = 0 := rfl
@[simp] theorem State.raiseBuffer_result (k : ErrKind) : (s.raiseBuffer k).result = 0 := rfl
@[simp] theorem State.raiseBuffer_ibufSz (k : ErrKind) : (s.raiseBuffer k).ibufSz = s.ibufSz := rfl
@[simp] theorem State.raiseBuffer_obufSz (k : ErrKind) : (s.raiseBuffer k).obufSz = s.obufSz := rfl
@[simp] theorem State.raiseBuffer_ibuf (k : ErrKind) : (s.raiseBuffer k).ibuf = s.ibuf := rfl
@[simp] theorem State.raiseBuffer_obuf (k : ErrKind) : (s.raiseBuffer k).obuf = [] := rfl
@[simp] theorem State.raiseBuffer_dp (k : ErrKind) : (s.raiseBuffer k).dp = Datapath.unspecified s.draws s.inLen.toNat s.obufSz.bytes := rfl
@[simp] theorem State.raiseBuffer_resetLine (k : ErrKind) : (s.raiseBuffer k).resetLine = s.resetLine := rfl
@[simp] theorem State.raiseBuffer_pending (k : ErrKind) : (s.raiseBuffer k).pending = s.pending := rfl
@[simp] theorem State.raiseBuffer_schedule (k : ErrKind) : (s.raiseBuffer k).schedule = s.schedule := rfl
@[simp] theorem State.raiseBuffer_responses (k : ErrKind) : (s.raiseBuffer k).responses = s.responses := rfl
@[simp] theorem State.raiseBuffer_ibufEpoch (k : ErrKind) : (s.raiseBuffer k).ibufEpoch = s.ibufEpoch := rfl
@[simp] theorem State.raiseBuffer_obufEpoch (k : ErrKind) : (s.raiseBuffer k).obufEpoch = s.draws := rfl
@[simp] theorem State.raiseBuffer_draws (k : ErrKind) : (s.raiseBuffer k).draws = s.draws + 1 := rfl

/-! `State.emit` -/
@[simp] theorem State.emit_cmd (v : Byte) : (s.emit v).cmd = s.cmd := rfl
@[simp] theorem State.emit_status (v : Byte) : (s.emit v).status = s.status := rfl
@[simp] theorem State.emit_inLen (v : Byte) : (s.emit v).inLen = s.inLen := rfl
@[simp] theorem State.emit_outLen (v : Byte) : (s.emit v).outLen = s.outLen := rfl
@[simp] theorem State.emit_result (v : Byte) : (s.emit v).result = s.result := rfl
@[simp] theorem State.emit_ibufSz (v : Byte) : (s.emit v).ibufSz = s.ibufSz := rfl
@[simp] theorem State.emit_obufSz (v : Byte) : (s.emit v).obufSz = s.obufSz := rfl
@[simp] theorem State.emit_ibuf (v : Byte) : (s.emit v).ibuf = s.ibuf := rfl
@[simp] theorem State.emit_obuf (v : Byte) : (s.emit v).obuf = Memory.write s.obuf s.dp.outPos.toNat v := rfl
@[simp] theorem State.emit_dp (v : Byte) : (s.emit v).dp = { s.dp with outPos := s.dp.outPos + 1 } := rfl
@[simp] theorem State.emit_resetLine (v : Byte) : (s.emit v).resetLine = s.resetLine := rfl
@[simp] theorem State.emit_pending (v : Byte) : (s.emit v).pending = s.pending := rfl
@[simp] theorem State.emit_schedule (v : Byte) : (s.emit v).schedule = s.schedule := rfl
@[simp] theorem State.emit_responses (v : Byte) : (s.emit v).responses = s.responses := rfl
@[simp] theorem State.emit_ibufEpoch (v : Byte) : (s.emit v).ibufEpoch = s.ibufEpoch := rfl
@[simp] theorem State.emit_obufEpoch (v : Byte) : (s.emit v).obufEpoch = s.obufEpoch := rfl
@[simp] theorem State.emit_draws (v : Byte) : (s.emit v).draws = s.draws := rfl

/-! `State.takeTurn` -/
@[simp] theorem State.takeTurn_cmd : (s.takeTurn).cmd = s.cmd := rfl
@[simp] theorem State.takeTurn_status : (s.takeTurn).status = s.status := rfl
@[simp] theorem State.takeTurn_inLen : (s.takeTurn).inLen = s.inLen := rfl
@[simp] theorem State.takeTurn_outLen : (s.takeTurn).outLen = s.outLen := rfl
@[simp] theorem State.takeTurn_result : (s.takeTurn).result = s.result := rfl
@[simp] theorem State.takeTurn_ibufSz : (s.takeTurn).ibufSz = s.ibufSz := rfl
@[simp] theorem State.takeTurn_obufSz : (s.takeTurn).obufSz = s.obufSz := rfl
@[simp] theorem State.takeTurn_ibuf : (s.takeTurn).ibuf = s.ibuf := rfl
@[simp] theorem State.takeTurn_obuf : (s.takeTurn).obuf = s.obuf := rfl
@[simp] theorem State.takeTurn_dp : (s.takeTurn).dp = s.dp := rfl
@[simp] theorem State.takeTurn_resetLine : (s.takeTurn).resetLine = s.resetLine := rfl
@[simp] theorem State.takeTurn_pending : (s.takeTurn).pending = s.pending := rfl
@[simp] theorem State.takeTurn_schedule : (s.takeTurn).schedule = s.schedule.tail := rfl
@[simp] theorem State.takeTurn_responses : (s.takeTurn).responses = s.responses := rfl
@[simp] theorem State.takeTurn_ibufEpoch : (s.takeTurn).ibufEpoch = s.ibufEpoch := rfl
@[simp] theorem State.takeTurn_obufEpoch : (s.takeTurn).obufEpoch = s.obufEpoch := rfl
@[simp] theorem State.takeTurn_draws : (s.takeTurn).draws = s.draws := rfl

/-! `State.respond` -/
@[simp] theorem State.respond_cmd (r : Response) : (s.respond r).cmd = s.cmd := rfl
@[simp] theorem State.respond_status (r : Response) : (s.respond r).status = s.status := rfl
@[simp] theorem State.respond_inLen (r : Response) : (s.respond r).inLen = s.inLen := rfl
@[simp] theorem State.respond_outLen (r : Response) : (s.respond r).outLen = s.outLen := rfl
@[simp] theorem State.respond_result (r : Response) : (s.respond r).result = s.result := rfl
@[simp] theorem State.respond_ibufSz (r : Response) : (s.respond r).ibufSz = s.ibufSz := rfl
@[simp] theorem State.respond_obufSz (r : Response) : (s.respond r).obufSz = s.obufSz := rfl
@[simp] theorem State.respond_ibuf (r : Response) : (s.respond r).ibuf = s.ibuf := rfl
@[simp] theorem State.respond_obuf (r : Response) : (s.respond r).obuf = s.obuf := rfl
@[simp] theorem State.respond_dp (r : Response) : (s.respond r).dp = s.dp := rfl
@[simp] theorem State.respond_resetLine (r : Response) : (s.respond r).resetLine = s.resetLine := rfl
@[simp] theorem State.respond_pending (r : Response) : (s.respond r).pending = s.pending := rfl
@[simp] theorem State.respond_schedule (r : Response) : (s.respond r).schedule = s.schedule := rfl
@[simp] theorem State.respond_responses (r : Response) : (s.respond r).responses = s.responses ++ [r] := rfl
@[simp] theorem State.respond_ibufEpoch (r : Response) : (s.respond r).ibufEpoch = s.ibufEpoch := rfl
@[simp] theorem State.respond_obufEpoch (r : Response) : (s.respond r).obufEpoch = s.obufEpoch := rfl
@[simp] theorem State.respond_draws (r : Response) : (s.respond r).draws = s.draws := rfl

/-! `State.assertReset` -/
@[simp] theorem State.assertReset_cmd : (s.assertReset).cmd = 0 := rfl
@[simp] theorem State.assertReset_status : (s.assertReset).status = Status.reset := rfl
@[simp] theorem State.assertReset_inLen : (s.assertReset).inLen = 0 := rfl
@[simp] theorem State.assertReset_outLen : (s.assertReset).outLen = 0 := rfl
@[simp] theorem State.assertReset_result : (s.assertReset).result = 0 := rfl
@[simp] theorem State.assertReset_ibufSz : (s.assertReset).ibufSz = s.ibufSz := rfl
@[simp] theorem State.assertReset_obufSz : (s.assertReset).obufSz = s.obufSz := rfl
@[simp] theorem State.assertReset_ibuf : (s.assertReset).ibuf = [] := rfl
@[simp] theorem State.assertReset_obuf : (s.assertReset).obuf = [] := rfl
@[simp] theorem State.assertReset_dp : (s.assertReset).dp = Datapath.reset := rfl
@[simp] theorem State.assertReset_resetLine : (s.assertReset).resetLine = true := rfl
@[simp] theorem State.assertReset_pending : (s.assertReset).pending = s.pending := rfl
@[simp] theorem State.assertReset_schedule : (s.assertReset).schedule = s.schedule := rfl
@[simp] theorem State.assertReset_responses : (s.assertReset).responses = s.responses := rfl
@[simp] theorem State.assertReset_ibufEpoch : (s.assertReset).ibufEpoch = s.draws := rfl
@[simp] theorem State.assertReset_obufEpoch : (s.assertReset).obufEpoch = s.draws := rfl
@[simp] theorem State.assertReset_draws : (s.assertReset).draws = s.draws + 1 := rfl

/-! `State.releaseReset` -/
@[simp] theorem State.releaseReset_cmd : (s.releaseReset).cmd = s.cmd := rfl
@[simp] theorem State.releaseReset_status : (s.releaseReset).status = s.status := rfl
@[simp] theorem State.releaseReset_inLen : (s.releaseReset).inLen = s.inLen := rfl
@[simp] theorem State.releaseReset_outLen : (s.releaseReset).outLen = s.outLen := rfl
@[simp] theorem State.releaseReset_result : (s.releaseReset).result = s.result := rfl
@[simp] theorem State.releaseReset_ibufSz : (s.releaseReset).ibufSz = s.ibufSz := rfl
@[simp] theorem State.releaseReset_obufSz : (s.releaseReset).obufSz = s.obufSz := rfl
@[simp] theorem State.releaseReset_ibuf : (s.releaseReset).ibuf = s.ibuf := rfl
@[simp] theorem State.releaseReset_obuf : (s.releaseReset).obuf = s.obuf := rfl
@[simp] theorem State.releaseReset_dp : (s.releaseReset).dp = s.dp := rfl
@[simp] theorem State.releaseReset_resetLine : (s.releaseReset).resetLine = false := rfl
@[simp] theorem State.releaseReset_pending : (s.releaseReset).pending = s.pending := rfl
@[simp] theorem State.releaseReset_schedule : (s.releaseReset).schedule = s.schedule := rfl
@[simp] theorem State.releaseReset_responses : (s.releaseReset).responses = s.responses := rfl
@[simp] theorem State.releaseReset_ibufEpoch : (s.releaseReset).ibufEpoch = s.ibufEpoch := rfl
@[simp] theorem State.releaseReset_obufEpoch : (s.releaseReset).obufEpoch = s.obufEpoch := rfl
@[simp] theorem State.releaseReset_draws : (s.releaseReset).draws = s.draws := rfl

/-! `State.dropWrite` -/
@[simp] theorem State.dropWrite_cmd : (s.dropWrite).cmd = s.cmd := rfl
@[simp] theorem State.dropWrite_status : (s.dropWrite).status = s.status.droppedWrite := rfl
@[simp] theorem State.dropWrite_inLen : (s.dropWrite).inLen = s.inLen := rfl
@[simp] theorem State.dropWrite_outLen : (s.dropWrite).outLen = s.outLen := rfl
@[simp] theorem State.dropWrite_result : (s.dropWrite).result = s.result := rfl
@[simp] theorem State.dropWrite_ibufSz : (s.dropWrite).ibufSz = s.ibufSz := rfl
@[simp] theorem State.dropWrite_obufSz : (s.dropWrite).obufSz = s.obufSz := rfl
@[simp] theorem State.dropWrite_ibuf : (s.dropWrite).ibuf = s.ibuf := rfl
@[simp] theorem State.dropWrite_obuf : (s.dropWrite).obuf = s.obuf := rfl
@[simp] theorem State.dropWrite_dp : (s.dropWrite).dp = s.dp := rfl
@[simp] theorem State.dropWrite_resetLine : (s.dropWrite).resetLine = s.resetLine := rfl
@[simp] theorem State.dropWrite_pending : (s.dropWrite).pending = s.pending := rfl
@[simp] theorem State.dropWrite_schedule : (s.dropWrite).schedule = s.schedule := rfl
@[simp] theorem State.dropWrite_responses : (s.dropWrite).responses = s.responses := rfl
@[simp] theorem State.dropWrite_ibufEpoch : (s.dropWrite).ibufEpoch = s.ibufEpoch := rfl
@[simp] theorem State.dropWrite_obufEpoch : (s.dropWrite).obufEpoch = s.obufEpoch := rfl
@[simp] theorem State.dropWrite_draws : (s.dropWrite).draws = s.draws := rfl

/-! `State.writeInLen` -/
@[simp] theorem State.writeInLen_cmd (d : Word) : (s.writeInLen d).cmd = s.cmd := rfl
@[simp] theorem State.writeInLen_status (d : Word) : (s.writeInLen d).status = s.status := rfl
@[simp] theorem State.writeInLen_inLen (d : Word) : (s.writeInLen d).inLen = d := rfl
@[simp] theorem State.writeInLen_outLen (d : Word) : (s.writeInLen d).outLen = s.outLen := rfl
@[simp] theorem State.writeInLen_result (d : Word) : (s.writeInLen d).result = s.result := rfl
@[simp] theorem State.writeInLen_ibufSz (d : Word) : (s.writeInLen d).ibufSz = s.ibufSz := rfl
@[simp] theorem State.writeInLen_obufSz (d : Word) : (s.writeInLen d).obufSz = s.obufSz := rfl
@[simp] theorem State.writeInLen_ibuf (d : Word) : (s.writeInLen d).ibuf = s.ibuf := rfl
@[simp] theorem State.writeInLen_obuf (d : Word) : (s.writeInLen d).obuf = s.obuf := rfl
@[simp] theorem State.writeInLen_dp (d : Word) : (s.writeInLen d).dp = s.dp := rfl
@[simp] theorem State.writeInLen_resetLine (d : Word) : (s.writeInLen d).resetLine = s.resetLine := rfl
@[simp] theorem State.writeInLen_pending (d : Word) : (s.writeInLen d).pending = s.pending := rfl
@[simp] theorem State.writeInLen_schedule (d : Word) : (s.writeInLen d).schedule = s.schedule := rfl
@[simp] theorem State.writeInLen_responses (d : Word) : (s.writeInLen d).responses = s.responses := rfl
@[simp] theorem State.writeInLen_ibufEpoch (d : Word) : (s.writeInLen d).ibufEpoch = s.ibufEpoch := rfl
@[simp] theorem State.writeInLen_obufEpoch (d : Word) : (s.writeInLen d).obufEpoch = s.obufEpoch := rfl
@[simp] theorem State.writeInLen_draws (d : Word) : (s.writeInLen d).draws = s.draws := rfl

/-! `State.readBusyObuf` -/
@[simp] theorem State.readBusyObuf_cmd : (s.readBusyObuf).cmd = s.cmd := rfl
@[simp] theorem State.readBusyObuf_status : (s.readBusyObuf).status = s.status := rfl
@[simp] theorem State.readBusyObuf_inLen : (s.readBusyObuf).inLen = s.inLen := rfl
@[simp] theorem State.readBusyObuf_outLen : (s.readBusyObuf).outLen = s.outLen := rfl
@[simp] theorem State.readBusyObuf_result : (s.readBusyObuf).result = s.result := rfl
@[simp] theorem State.readBusyObuf_ibufSz : (s.readBusyObuf).ibufSz = s.ibufSz := rfl
@[simp] theorem State.readBusyObuf_obufSz : (s.readBusyObuf).obufSz = s.obufSz := rfl
@[simp] theorem State.readBusyObuf_ibuf : (s.readBusyObuf).ibuf = s.ibuf := rfl
@[simp] theorem State.readBusyObuf_obuf : (s.readBusyObuf).obuf = s.obuf := rfl
@[simp] theorem State.readBusyObuf_dp : (s.readBusyObuf).dp = s.dp := rfl
@[simp] theorem State.readBusyObuf_resetLine : (s.readBusyObuf).resetLine = s.resetLine := rfl
@[simp] theorem State.readBusyObuf_pending : (s.readBusyObuf).pending = s.pending := rfl
@[simp] theorem State.readBusyObuf_schedule : (s.readBusyObuf).schedule = s.schedule := rfl
@[simp] theorem State.readBusyObuf_responses :
    (s.readBusyObuf).responses =
      s.responses ++ [okRead (Config.busyObuf s.draws)] := rfl
@[simp] theorem State.readBusyObuf_ibufEpoch : (s.readBusyObuf).ibufEpoch = s.ibufEpoch := rfl
@[simp] theorem State.readBusyObuf_obufEpoch : (s.readBusyObuf).obufEpoch = s.obufEpoch := rfl
@[simp] theorem State.readBusyObuf_draws : (s.readBusyObuf).draws = s.draws + 1 := rfl

/-! `State.storeIbuf` -/
@[simp] theorem State.storeIbuf_cmd (first : Nat) (d : Word) : (s.storeIbuf first d).cmd = s.cmd := rfl
@[simp] theorem State.storeIbuf_status (first : Nat) (d : Word) : (s.storeIbuf first d).status = s.status := rfl
@[simp] theorem State.storeIbuf_inLen (first : Nat) (d : Word) : (s.storeIbuf first d).inLen = s.inLen := rfl
@[simp] theorem State.storeIbuf_outLen (first : Nat) (d : Word) : (s.storeIbuf first d).outLen = s.outLen := rfl
@[simp] theorem State.storeIbuf_result (first : Nat) (d : Word) : (s.storeIbuf first d).result = s.result := rfl
@[simp] theorem State.storeIbuf_ibufSz (first : Nat) (d : Word) : (s.storeIbuf first d).ibufSz = s.ibufSz := rfl
@[simp] theorem State.storeIbuf_obufSz (first : Nat) (d : Word) : (s.storeIbuf first d).obufSz = s.obufSz := rfl
@[simp] theorem State.storeIbuf_obuf (first : Nat) (d : Word) : (s.storeIbuf first d).obuf = s.obuf := rfl
@[simp] theorem State.storeIbuf_dp (first : Nat) (d : Word) : (s.storeIbuf first d).dp = s.dp := rfl
@[simp] theorem State.storeIbuf_resetLine (first : Nat) (d : Word) :
    (s.storeIbuf first d).resetLine =
      s.resetLine := rfl
@[simp] theorem State.storeIbuf_pending (first : Nat) (d : Word) : (s.storeIbuf first d).pending = s.pending := rfl
@[simp] theorem State.storeIbuf_schedule (first : Nat) (d : Word) :
    (s.storeIbuf first d).schedule =
      s.schedule := rfl
@[simp] theorem State.storeIbuf_responses (first : Nat) (d : Word) :
    (s.storeIbuf first d).responses =
      s.responses := rfl
@[simp] theorem State.storeIbuf_ibufEpoch (first : Nat) (d : Word) :
    (s.storeIbuf first d).ibufEpoch =
      s.ibufEpoch := rfl
@[simp] theorem State.storeIbuf_obufEpoch (first : Nat) (d : Word) :
    (s.storeIbuf first d).obufEpoch =
      s.obufEpoch := rfl
@[simp] theorem State.storeIbuf_draws (first : Nat) (d : Word) : (s.storeIbuf first d).draws = s.draws := rfl

/-! `State.consume` -/
@[simp] theorem State.consume_cmd (k : Nat) : (s.consume k).cmd = s.cmd := rfl
@[simp] theorem State.consume_status (k : Nat) : (s.consume k).status = s.status := rfl
@[simp] theorem State.consume_inLen (k : Nat) : (s.consume k).inLen = s.inLen := rfl
@[simp] theorem State.consume_outLen (k : Nat) : (s.consume k).outLen = s.outLen := rfl
@[simp] theorem State.consume_result (k : Nat) : (s.consume k).result = s.result := rfl
@[simp] theorem State.consume_ibufSz (k : Nat) : (s.consume k).ibufSz = s.ibufSz := rfl
@[simp] theorem State.consume_obufSz (k : Nat) : (s.consume k).obufSz = s.obufSz := rfl
@[simp] theorem State.consume_ibuf (k : Nat) : (s.consume k).ibuf = s.ibuf := rfl
@[simp] theorem State.consume_obuf (k : Nat) : (s.consume k).obuf = s.obuf := rfl
@[simp] theorem State.consume_dp (k : Nat) :
    (s.consume k).dp =
      { s.dp with inPos := s.dp.inPos + BitVec.ofNat 17 k } := rfl
@[simp] theorem State.consume_resetLine (k : Nat) : (s.consume k).resetLine = s.resetLine := rfl
@[simp] theorem State.consume_pending (k : Nat) : (s.consume k).pending = s.pending := rfl
@[simp] theorem State.consume_schedule (k : Nat) : (s.consume k).schedule = s.schedule := rfl
@[simp] theorem State.consume_responses (k : Nat) : (s.consume k).responses = s.responses := rfl
@[simp] theorem State.consume_ibufEpoch (k : Nat) : (s.consume k).ibufEpoch = s.ibufEpoch := rfl
@[simp] theorem State.consume_obufEpoch (k : Nat) : (s.consume k).obufEpoch = s.obufEpoch := rfl
@[simp] theorem State.consume_draws (k : Nat) : (s.consume k).draws = s.draws := rfl

/-! `State.loadAcc` -/
@[simp] theorem State.loadAcc_cmd (v : Acc) : (s.loadAcc v).cmd = s.cmd := rfl
@[simp] theorem State.loadAcc_status (v : Acc) : (s.loadAcc v).status = s.status := rfl
@[simp] theorem State.loadAcc_inLen (v : Acc) : (s.loadAcc v).inLen = s.inLen := rfl
@[simp] theorem State.loadAcc_outLen (v : Acc) : (s.loadAcc v).outLen = s.outLen := rfl
@[simp] theorem State.loadAcc_result (v : Acc) : (s.loadAcc v).result = s.result := rfl
@[simp] theorem State.loadAcc_ibufSz (v : Acc) : (s.loadAcc v).ibufSz = s.ibufSz := rfl
@[simp] theorem State.loadAcc_obufSz (v : Acc) : (s.loadAcc v).obufSz = s.obufSz := rfl
@[simp] theorem State.loadAcc_ibuf (v : Acc) : (s.loadAcc v).ibuf = s.ibuf := rfl
@[simp] theorem State.loadAcc_obuf (v : Acc) : (s.loadAcc v).obuf = s.obuf := rfl
@[simp] theorem State.loadAcc_dp (v : Acc) : (s.loadAcc v).dp = { s.dp with acc := v } := rfl
@[simp] theorem State.loadAcc_resetLine (v : Acc) : (s.loadAcc v).resetLine = s.resetLine := rfl
@[simp] theorem State.loadAcc_pending (v : Acc) : (s.loadAcc v).pending = s.pending := rfl
@[simp] theorem State.loadAcc_schedule (v : Acc) : (s.loadAcc v).schedule = s.schedule := rfl
@[simp] theorem State.loadAcc_responses (v : Acc) : (s.loadAcc v).responses = s.responses := rfl
@[simp] theorem State.loadAcc_ibufEpoch (v : Acc) : (s.loadAcc v).ibufEpoch = s.ibufEpoch := rfl
@[simp] theorem State.loadAcc_obufEpoch (v : Acc) : (s.loadAcc v).obufEpoch = s.obufEpoch := rfl
@[simp] theorem State.loadAcc_draws (v : Acc) : (s.loadAcc v).draws = s.draws := rfl

/-! `State.clearChunk` -/
@[simp] theorem State.clearChunk_cmd : (s.clearChunk).cmd = s.cmd := rfl
@[simp] theorem State.clearChunk_status : (s.clearChunk).status = s.status := rfl
@[simp] theorem State.clearChunk_inLen : (s.clearChunk).inLen = s.inLen := rfl
@[simp] theorem State.clearChunk_outLen : (s.clearChunk).outLen = s.outLen := rfl
@[simp] theorem State.clearChunk_result : (s.clearChunk).result = s.result := rfl
@[simp] theorem State.clearChunk_ibufSz : (s.clearChunk).ibufSz = s.ibufSz := rfl
@[simp] theorem State.clearChunk_obufSz : (s.clearChunk).obufSz = s.obufSz := rfl
@[simp] theorem State.clearChunk_ibuf : (s.clearChunk).ibuf = s.ibuf := rfl
@[simp] theorem State.clearChunk_obuf : (s.clearChunk).obuf = s.obuf := rfl
@[simp] theorem State.clearChunk_dp :
    (s.clearChunk).dp =
      { s.dp with acc := 0, nb := 0, nd := 0, lifoDepth := 0 } := rfl
@[simp] theorem State.clearChunk_resetLine : (s.clearChunk).resetLine = s.resetLine := rfl
@[simp] theorem State.clearChunk_pending : (s.clearChunk).pending = s.pending := rfl
@[simp] theorem State.clearChunk_schedule : (s.clearChunk).schedule = s.schedule := rfl
@[simp] theorem State.clearChunk_responses : (s.clearChunk).responses = s.responses := rfl
@[simp] theorem State.clearChunk_ibufEpoch : (s.clearChunk).ibufEpoch = s.ibufEpoch := rfl
@[simp] theorem State.clearChunk_obufEpoch : (s.clearChunk).obufEpoch = s.obufEpoch := rfl
@[simp] theorem State.clearChunk_draws : (s.clearChunk).draws = s.draws := rfl

/-! `State.foldByte` -/
@[simp] theorem State.foldByte_cmd : (s.foldByte).cmd = s.cmd := rfl
@[simp] theorem State.foldByte_status : (s.foldByte).status = s.status := rfl
@[simp] theorem State.foldByte_inLen : (s.foldByte).inLen = s.inLen := rfl
@[simp] theorem State.foldByte_outLen : (s.foldByte).outLen = s.outLen := rfl
@[simp] theorem State.foldByte_result : (s.foldByte).result = s.result := rfl
@[simp] theorem State.foldByte_ibufSz : (s.foldByte).ibufSz = s.ibufSz := rfl
@[simp] theorem State.foldByte_obufSz : (s.foldByte).obufSz = s.obufSz := rfl
@[simp] theorem State.foldByte_ibuf : (s.foldByte).ibuf = s.ibuf := rfl
@[simp] theorem State.foldByte_obuf : (s.foldByte).obuf = s.obuf := rfl
@[simp] theorem State.foldByte_dp :
    (s.foldByte).dp =
      { s.dp with acc := s.dp.acc * 256 + widen (s.peek 0), nb := s.dp.nb + 1, inPos := s.dp.inPos + 1 } := rfl
@[simp] theorem State.foldByte_resetLine : (s.foldByte).resetLine = s.resetLine := rfl
@[simp] theorem State.foldByte_pending : (s.foldByte).pending = s.pending := rfl
@[simp] theorem State.foldByte_schedule : (s.foldByte).schedule = s.schedule := rfl
@[simp] theorem State.foldByte_responses : (s.foldByte).responses = s.responses := rfl
@[simp] theorem State.foldByte_ibufEpoch : (s.foldByte).ibufEpoch = s.ibufEpoch := rfl
@[simp] theorem State.foldByte_obufEpoch : (s.foldByte).obufEpoch = s.obufEpoch := rfl
@[simp] theorem State.foldByte_draws : (s.foldByte).draws = s.draws := rfl

/-! `State.pushDigit` -/
@[simp] theorem State.pushDigit_cmd : (s.pushDigit).cmd = s.cmd := rfl
@[simp] theorem State.pushDigit_status : (s.pushDigit).status = s.status := rfl
@[simp] theorem State.pushDigit_inLen : (s.pushDigit).inLen = s.inLen := rfl
@[simp] theorem State.pushDigit_outLen : (s.pushDigit).outLen = s.outLen := rfl
@[simp] theorem State.pushDigit_result : (s.pushDigit).result = s.result := rfl
@[simp] theorem State.pushDigit_ibufSz : (s.pushDigit).ibufSz = s.ibufSz := rfl
@[simp] theorem State.pushDigit_obufSz : (s.pushDigit).obufSz = s.obufSz := rfl
@[simp] theorem State.pushDigit_ibuf : (s.pushDigit).ibuf = s.ibuf := rfl
@[simp] theorem State.pushDigit_obuf : (s.pushDigit).obuf = s.obuf := rfl
@[simp] theorem State.pushDigit_dp :
    (s.pushDigit).dp =
      { s.dp with digbuf := s.dp.digbuf.setIfInBounds s.dp.nd.toNat ((s.dp.acc % 45).setWidth 6), nd := s.dp.nd + 1, acc := s.dp.acc / 45 } := rfl
@[simp] theorem State.pushDigit_resetLine : (s.pushDigit).resetLine = s.resetLine := rfl
@[simp] theorem State.pushDigit_pending : (s.pushDigit).pending = s.pending := rfl
@[simp] theorem State.pushDigit_schedule : (s.pushDigit).schedule = s.schedule := rfl
@[simp] theorem State.pushDigit_responses : (s.pushDigit).responses = s.responses := rfl
@[simp] theorem State.pushDigit_ibufEpoch : (s.pushDigit).ibufEpoch = s.ibufEpoch := rfl
@[simp] theorem State.pushDigit_obufEpoch : (s.pushDigit).obufEpoch = s.obufEpoch := rfl
@[simp] theorem State.pushDigit_draws : (s.pushDigit).draws = s.draws := rfl

/-! `State.pushByte` -/
@[simp] theorem State.pushByte_cmd : (s.pushByte).cmd = s.cmd := rfl
@[simp] theorem State.pushByte_status : (s.pushByte).status = s.status := rfl
@[simp] theorem State.pushByte_inLen : (s.pushByte).inLen = s.inLen := rfl
@[simp] theorem State.pushByte_outLen : (s.pushByte).outLen = s.outLen := rfl
@[simp] theorem State.pushByte_result : (s.pushByte).result = s.result := rfl
@[simp] theorem State.pushByte_ibufSz : (s.pushByte).ibufSz = s.ibufSz := rfl
@[simp] theorem State.pushByte_obufSz : (s.pushByte).obufSz = s.obufSz := rfl
@[simp] theorem State.pushByte_ibuf : (s.pushByte).ibuf = s.ibuf := rfl
@[simp] theorem State.pushByte_obuf : (s.pushByte).obuf = s.obuf := rfl
@[simp] theorem State.pushByte_dp :
    (s.pushByte).dp =
      { s.dp with lifo := s.dp.lifo.setIfInBounds s.dp.lifoDepth.toNat (s.dp.acc.setWidth 8), lifoDepth := s.dp.lifoDepth + 1, acc := s.dp.acc >>> 8 } := rfl
@[simp] theorem State.pushByte_resetLine : (s.pushByte).resetLine = s.resetLine := rfl
@[simp] theorem State.pushByte_pending : (s.pushByte).pending = s.pending := rfl
@[simp] theorem State.pushByte_schedule : (s.pushByte).schedule = s.schedule := rfl
@[simp] theorem State.pushByte_responses : (s.pushByte).responses = s.responses := rfl
@[simp] theorem State.pushByte_ibufEpoch : (s.pushByte).ibufEpoch = s.ibufEpoch := rfl
@[simp] theorem State.pushByte_obufEpoch : (s.pushByte).obufEpoch = s.obufEpoch := rfl
@[simp] theorem State.pushByte_draws : (s.pushByte).draws = s.draws := rfl

/-! `State.emptyLifo` -/
@[simp] theorem State.emptyLifo_cmd : (s.emptyLifo).cmd = s.cmd := rfl
@[simp] theorem State.emptyLifo_status : (s.emptyLifo).status = s.status := rfl
@[simp] theorem State.emptyLifo_inLen : (s.emptyLifo).inLen = s.inLen := rfl
@[simp] theorem State.emptyLifo_outLen : (s.emptyLifo).outLen = s.outLen := rfl
@[simp] theorem State.emptyLifo_result : (s.emptyLifo).result = s.result := rfl
@[simp] theorem State.emptyLifo_ibufSz : (s.emptyLifo).ibufSz = s.ibufSz := rfl
@[simp] theorem State.emptyLifo_obufSz : (s.emptyLifo).obufSz = s.obufSz := rfl
@[simp] theorem State.emptyLifo_ibuf : (s.emptyLifo).ibuf = s.ibuf := rfl
@[simp] theorem State.emptyLifo_obuf : (s.emptyLifo).obuf = s.obuf := rfl
@[simp] theorem State.emptyLifo_dp : (s.emptyLifo).dp = { s.dp with lifoDepth := 0 } := rfl
@[simp] theorem State.emptyLifo_resetLine : (s.emptyLifo).resetLine = s.resetLine := rfl
@[simp] theorem State.emptyLifo_pending : (s.emptyLifo).pending = s.pending := rfl
@[simp] theorem State.emptyLifo_schedule : (s.emptyLifo).schedule = s.schedule := rfl
@[simp] theorem State.emptyLifo_responses : (s.emptyLifo).responses = s.responses := rfl
@[simp] theorem State.emptyLifo_ibufEpoch : (s.emptyLifo).ibufEpoch = s.ibufEpoch := rfl
@[simp] theorem State.emptyLifo_obufEpoch : (s.emptyLifo).obufEpoch = s.obufEpoch := rfl
@[simp] theorem State.emptyLifo_draws : (s.emptyLifo).draws = s.draws := rfl

/-! `State.loadNb` -/
@[simp] theorem State.loadNb_cmd (n : Nat) : (s.loadNb n).cmd = s.cmd := rfl
@[simp] theorem State.loadNb_status (n : Nat) : (s.loadNb n).status = s.status := rfl
@[simp] theorem State.loadNb_inLen (n : Nat) : (s.loadNb n).inLen = s.inLen := rfl
@[simp] theorem State.loadNb_outLen (n : Nat) : (s.loadNb n).outLen = s.outLen := rfl
@[simp] theorem State.loadNb_result (n : Nat) : (s.loadNb n).result = s.result := rfl
@[simp] theorem State.loadNb_ibufSz (n : Nat) : (s.loadNb n).ibufSz = s.ibufSz := rfl
@[simp] theorem State.loadNb_obufSz (n : Nat) : (s.loadNb n).obufSz = s.obufSz := rfl
@[simp] theorem State.loadNb_ibuf (n : Nat) : (s.loadNb n).ibuf = s.ibuf := rfl
@[simp] theorem State.loadNb_obuf (n : Nat) : (s.loadNb n).obuf = s.obuf := rfl
@[simp] theorem State.loadNb_dp (n : Nat) : (s.loadNb n).dp = { s.dp with nb := BitVec.ofNat 3 n } := rfl
@[simp] theorem State.loadNb_resetLine (n : Nat) : (s.loadNb n).resetLine = s.resetLine := rfl
@[simp] theorem State.loadNb_pending (n : Nat) : (s.loadNb n).pending = s.pending := rfl
@[simp] theorem State.loadNb_schedule (n : Nat) : (s.loadNb n).schedule = s.schedule := rfl
@[simp] theorem State.loadNb_responses (n : Nat) : (s.loadNb n).responses = s.responses := rfl
@[simp] theorem State.loadNb_ibufEpoch (n : Nat) : (s.loadNb n).ibufEpoch = s.ibufEpoch := rfl
@[simp] theorem State.loadNb_obufEpoch (n : Nat) : (s.loadNb n).obufEpoch = s.obufEpoch := rfl
@[simp] theorem State.loadNb_draws (n : Nat) : (s.loadNb n).draws = s.draws := rfl

variable (f : Status)

@[simp] theorem Status.accepted_busy : (f.accepted).busy = true := rfl
@[simp] theorem Status.accepted_done : (f.accepted).done = false := rfl
@[simp] theorem Status.accepted_err : (f.accepted).err = false := rfl
@[simp] theorem Status.accepted_dropped : (f.accepted).dropped = false := rfl
@[simp] theorem Status.accepted_errcode : (f.accepted).errcode = 0 := rfl
@[simp] theorem Status.completed_busy : (f.completed).busy = false := rfl
@[simp] theorem Status.completed_done : (f.completed).done = true := rfl
@[simp] theorem Status.completed_err : (f.completed).err = f.err := rfl
@[simp] theorem Status.completed_dropped : (f.completed).dropped = f.dropped := rfl
@[simp] theorem Status.completed_errcode : (f.completed).errcode = f.errcode := rfl
@[simp] theorem Status.failed_busy (k : ErrKind) : (f.failed k).busy = false := rfl
@[simp] theorem Status.failed_done (k : ErrKind) : (f.failed k).done = false := rfl
@[simp] theorem Status.failed_err (k : ErrKind) : (f.failed k).err = true := rfl
@[simp] theorem Status.failed_dropped (k : ErrKind) : (f.failed k).dropped = f.dropped := rfl
@[simp] theorem Status.failed_errcode (k : ErrKind) : (f.failed k).errcode = k.code := rfl
@[simp] theorem Status.droppedWrite_busy : (f.droppedWrite).busy = f.busy := rfl
@[simp] theorem Status.droppedWrite_done : (f.droppedWrite).done = f.done := rfl
@[simp] theorem Status.droppedWrite_err : (f.droppedWrite).err = f.err := rfl
@[simp] theorem Status.droppedWrite_dropped : (f.droppedWrite).dropped = true := rfl
@[simp] theorem Status.droppedWrite_errcode : (f.droppedWrite).errcode = f.errcode := rfl
@[simp] theorem Status.reset_busy : Status.reset.busy = false := rfl
@[simp] theorem Status.reset_done : Status.reset.done = false := rfl
@[simp] theorem Status.reset_err : Status.reset.err = false := rfl
@[simp] theorem Status.reset_dropped : Status.reset.dropped = false := rfl
@[simp] theorem Status.reset_errcode : Status.reset.errcode = 0 := rfl

end Sys2Proof.Machine
end

