-- ==== Sys2Proof/Laws/Ops.lean ====
section
/-! SUPPORT. For each shared operation, everything it can do. -/
namespace Sys2Proof.Machine

@[simp] theorem Res.bind_ok {α β : Type} (x : α) (f : α → Res β) : (Res.ok x).bind f = f x := rfl

@[simp] theorem Res.bind_err {α β : Type} (k : ErrKind) (f : α → Res β) :
    (Res.err k : Res α).bind f = .err k := rfl

/-- A value comes out of a bind only through both of its parts. -/
theorem Res.bind_eq_ok {α β : Type} {r : Res α} {f : α → Res β} {y : β} :
    r.bind f = .ok y ↔ ∃ x, r = .ok x ∧ f x = .ok y := by
  cases r <;> simp

/-- An error comes out of a bind from one of its parts. -/
theorem Res.bind_eq_err {α β : Type} {r : Res α} {f : α → Res β} {k : ErrKind} :
    r.bind f = .err k ↔ r = .err k ∨ ∃ x, r = .ok x ∧ f x = .err k := by
  cases r <;> simp

/-- The engine's passes change OBUF and the datapath and nothing else. -/
def EngineOnly (s t : State) : Prop := t = { s with obuf := t.obuf, dp := t.dp }

theorem EngineOnly.refl (s : State) : EngineOnly s s := rfl

theorem EngineOnly.trans {s t u : State} (h : EngineOnly s t) (h' : EngineOnly t u) : EngineOnly s u := by
  unfold EngineOnly at *
  rw [h', h]

theorem EngineOnly.of_dp (s : State) (d : Datapath) : EngineOnly s { s with dp := d } := rfl

theorem emit_engineOnly (v : Byte) (s : State) : EngineOnly s (s.emit v) := rfl

theorem emitAll_engineOnly (group : List Byte) (s : State) : EngineOnly s (s.emitAll group) := by
  induction group generalizing s with
  | nil => rfl
  | cons v rest ih => exact (emit_engineOnly v s).trans (ih (s.emit v))

/-- `emit_group` writes the whole group, which fits, or raises OUTPUT_OVERFLOW (R93). -/
theorem emitGroup_cases {group : List Byte} {s : State} {r : Res State} (h : s.emitGroup group = r) :
    (s.dp.outPos.toNat + group.length ≤ s.obufSz.bytes ∧ r = .ok (s.emitAll group)) ∨
      (s.obufSz.bytes < s.dp.outPos.toNat + group.length ∧ r = .err .outputOverflow) := by
  unfold State.emitGroup at h
  split at h
  · exact .inl ⟨‹_›, h.symm⟩
  · exact .inr ⟨by omega, h.symm⟩

theorem emitGroup_engineOnly {group : List Byte} {s t : State} (h : s.emitGroup group = .ok t) :
    EngineOnly s t := by
  rcases emitGroup_cases h with ⟨-, ht⟩ | ⟨-, ht⟩
  · cases ht
    exact emitAll_engineOnly group s
  · cases ht

theorem foldBytes_engineOnly (n : Nat) (s : State) : EngineOnly s (State.foldBytes n s) := by
  induction n generalizing s with
  | zero => rfl
  | succ n ih => exact (show EngineOnly s s.foldByte from rfl).trans (ih s.foldByte)

theorem pushDigits_engineOnly (k : Nat) (s : State) : EngineOnly s (State.pushDigits k s) := by
  induction k generalizing s with
  | zero => rfl
  | succ k ih => exact (show EngineOnly s s.pushDigit from rfl).trans (ih s.pushDigit)

theorem pushBytes_engineOnly (n : Nat) (s : State) : EngineOnly s (State.pushBytes n s) := by
  induction n generalizing s with
  | zero => rfl
  | succ n ih => exact (show EngineOnly s s.pushByte from rfl).trans (ih s.pushByte)

theorem foldChar_engineOnly {s t : State} (h : s.foldChar = .ok t) : EngineOnly s t := by
  obtain ⟨d, -, ht⟩ := Res.bind_eq_ok.1 h
  cases ht
  rfl

theorem foldChars_engineOnly (m : Nat) {s t : State} (h : State.foldChars m s = .ok t) :
    EngineOnly s t := by
  induction m generalizing s with
  | zero =>
    cases h
    rfl
  | succ m ih =>
    obtain ⟨u, hu, ht⟩ := Res.bind_eq_ok.1 h
    exact (foldChar_engineOnly hu).trans (ih ht)

theorem enc45Pass_engineOnly {s t : State} (h : enc45Pass s = .ok t) : EngineOnly s t := by
  unfold enc45Pass at h
  split at h <;>
  · obtain ⟨out, -, ht⟩ := Res.bind_eq_ok.1 h
    exact EngineOnly.trans (EngineOnly.of_dp s _) (emitGroup_engineOnly ht)

theorem loadTriplet_engineOnly {c d e : Nat} {s t : State} (h : loadTriplet c d e s = .ok t) :
    EngineOnly s t := by
  unfold loadTriplet at h
  simp only at h
  split at h
  · cases h
  · cases h
    rfl

theorem dec45Pass_engineOnly {s t : State} (h : dec45Pass s = .ok t) : EngineOnly s t := by
  unfold dec45Pass at h
  split at h
  · cases h
  · split at h
    · obtain ⟨c, -, h⟩ := Res.bind_eq_ok.1 h
      obtain ⟨d, -, h⟩ := Res.bind_eq_ok.1 h
      obtain ⟨e, -, h⟩ := Res.bind_eq_ok.1 h
      obtain ⟨u, hu, h⟩ := Res.bind_eq_ok.1 h
      exact (loadTriplet_engineOnly hu).trans
        (EngineOnly.trans (EngineOnly.of_dp u _) (emitGroup_engineOnly h))
    · obtain ⟨c, -, h⟩ := Res.bind_eq_ok.1 h
      obtain ⟨d, -, h⟩ := Res.bind_eq_ok.1 h
      obtain ⟨u, hu, h⟩ := Res.bind_eq_ok.1 h
      exact (loadTriplet_engineOnly hu).trans
        (EngineOnly.trans (EngineOnly.of_dp u _) (emitGroup_engineOnly h))

theorem encqrPass_engineOnly {s t : State} (h : encqrPass s = .ok t) : EngineOnly s t := by
  obtain ⟨k, -, h⟩ := Res.bind_eq_ok.1 h
  obtain ⟨out, -, h⟩ := Res.bind_eq_ok.1 h
  exact EngineOnly.trans (EngineOnly.of_dp s _)
    ((foldBytes_engineOnly _ s.clearChunk).trans
      ((pushDigits_engineOnly k _).trans (emitGroup_engineOnly h)))

theorem decqrPass_engineOnly {s t : State} (h : decqrPass s = .ok t) : EngineOnly s t := by
  obtain ⟨s1, h1, h⟩ := Res.bind_eq_ok.1 h
  obtain ⟨n, -, h⟩ := Res.bind_eq_ok.1 h
  exact EngineOnly.trans (EngineOnly.of_dp s _)
    ((foldChars_engineOnly _ h1).trans
      (EngineOnly.trans (EngineOnly.of_dp s1 _)
        ((pushBytes_engineOnly _ _).trans
          (EngineOnly.trans (EngineOnly.of_dp _ _) (emitGroup_engineOnly h)))))

/-- What every pass keeps, the loop keeps. -/
theorem groupLoop_keeps {group : State → Res State} {P : State → Prop}
    (hpass : ∀ {u v}, P u → group u = .ok v → P v) (bound : Nat) {s t : State} (hs : P s)
    (h : groupLoop group bound s = .ok t) : P t := by
  induction bound generalizing s with
  | zero =>
    cases h
    exact hs
  | succ n ih =>
    unfold groupLoop at h
    split at h
    · obtain ⟨u, hu, ht⟩ := Res.bind_eq_ok.1 h
      exact ih (hpass hs hu) ht
    · cases h
      exact hs

theorem groupLoop_engineOnly {group : State → Res State}
    (hpass : ∀ {u v}, group u = .ok v → EngineOnly u v) (bound : Nat) {s t : State}
    (h : groupLoop group bound s = .ok t) : EngineOnly s t :=
  groupLoop_keeps (P := EngineOnly s) (fun hu hv => hu.trans (hpass hv)) bound (EngineOnly.refl s) h

/-- A lookup command completes with its value or ends with its error. -/
theorem lookup_cases {r : Res Byte} {s t : State} (h : lookup r s = .next t) :
    (∃ v, r = .ok v ∧ t = s.completeLookup v) ∨ (∃ k, r = .err k ∧ t = s.raise k) := by
  cases r with
  | ok v =>
    cases h
    exact .inl ⟨v, rfl, rfl⟩
  | err k =>
    cases h
    exact .inr ⟨k, rfl, rfl⟩

theorem lookup_next (r : Res Byte) (s : State) : ∃ t, lookup r s = .next t := by
  cases r <;> exact ⟨_, rfl⟩

/-- A buffer command ends in one of three ways: out of range, all groups converted, or a group's error. -/
theorem runBuffer_cases {group : State → Res State} {s t : State} (h : runBuffer group s = .next t) :
    (s.ibufSz.bytes < s.inLen.toNat ∧ t = s.raiseBuffer .inputLengthRange) ∨
      (s.inLen.toNat ≤ s.ibufSz.bytes ∧ ∃ u, groupLoop group s.inLen.toNat s = .ok u ∧ t = u.completeBuffer) ∨
      (s.inLen.toNat ≤ s.ibufSz.bytes ∧ ∃ k, groupLoop group s.inLen.toNat s = .err k ∧ t = s.raiseBuffer k) := by
  unfold runBuffer at h
  split at h
  · cases h
    exact .inl ⟨‹_›, rfl⟩
  · split at h
    · cases h
      exact .inr (.inl ⟨by omega, _, ‹_›, rfl⟩)
    · cases h
      exact .inr (.inr ⟨by omega, _, ‹_›, rfl⟩)

theorem runBuffer_next (group : State → Res State) (s : State) : ∃ t, runBuffer group s = .next t := by
  unfold runBuffer
  split
  · exact ⟨_, rfl⟩
  · split <;> exact ⟨_, rfl⟩

end Sys2Proof.Machine
end

