-- ==== Sys2Proof/Laws/Step.lean ====
section
/-! SUPPORT. What a step of each agent can do: the inversion lemmas that later proofs cite. -/
namespace Sys2Proof.Machine

/-- The engine's step: error termination on an illegal word, the command's meaning on a legal one. -/
theorem engineStep_cases {s : State} {r : Host.Outcome State Fault Refusal} (h : engineStep s = r) :
    (∃ y, decode s.dp.cur = .illegal y ∧ r = .next (s.raise .illegalCommand)) ∨
      (∃ i, decode s.dp.cur = .legal i ∧ r = exec i s) := by
  unfold engineStep at h
  split at h
  · exact .inr ⟨_, ‹_›, h.symm⟩
  · exact .inl ⟨_, ‹_›, h.symm⟩

/-- A write reaches the block in one of four ways. -/
theorem writeEffect_cases (s : State) (d : Word) (x : Target) :
    s.writeEffect d x = s ∨ (s.status.busy = true ∧ s.writeEffect d x = s.dropWrite) ∨
      (s.status.busy = false ∧
        (s.writeEffect d x = s.accept d ∨ s.writeEffect d x = s.writeInLen d ∨
          ∃ first, x = .ibufWord first ∧ s.writeEffect d x = s.storeIbuf first d)) := by
  cases hb : s.status.busy <;> cases x <;> simp [State.writeEffect, State.guarded, hb]

/-- A host access answers once, and changes the block only by the effect of a write. -/
theorem busAccess_cases (a : Access) (s : State) :
    (∃ r, s.busAccess a = s.respond r) ∨ s.busAccess a = s.readBusyObuf ∨
      (∃ d x, a.aligned = true ∧ s.target a.offset.toNat = some x ∧ a.op = .write d ∧
        s.busAccess a = (s.writeEffect d x).respond okWrite) := by
  unfold State.busAccess
  split
  · split
    · exact .inl ⟨_, rfl⟩
    · rename_i x hx
      split
      · cases x <;> simp only [State.readTarget] <;>
          first
          | exact .inl ⟨_, rfl⟩
          | (split
             · exact .inr (.inl rfl)
             · exact .inl ⟨_, rfl⟩)
      · rename_i d hd
        exact .inr (.inr ⟨d, x, ‹_›, hx, hd, rfl⟩)
  · exact .inl ⟨_, rfl⟩

/-- A host input: an access while reset is released, or a change of the reset line. -/
theorem applyInput_cases {e : Input} {s t : State} (h : applyInput e s = .next t) :
    (∃ a, e = .access a ∧ s.resetLine = false ∧ t = s.busAccess a) ∨
      (e = .assertReset ∧ t = s.assertReset) ∨ (e = .releaseReset ∧ t = s.releaseReset) := by
  cases e with
  | access a =>
    simp only [applyInput] at h
    split at h
    · cases h
    · cases h
      exact .inl ⟨a, rfl, by simp_all, rfl⟩
  | assertReset =>
    cases h
    exact .inr (.inl ⟨rfl, rfl⟩)
  | releaseReset =>
    cases h
    exact .inr (.inr ⟨rfl, rfl⟩)

/-- A step is the engine's, or takes the oldest input, or waits. -/
theorem step_cases {s t : State} (h : step s = .next t) :
    (s.engineMoves = true ∧ engineStep s.takeTurn = .next t) ∨
      (s.engineMoves = false ∧ s.pending = [] ∧ t = s) ∨
      (s.engineMoves = false ∧ ∃ e rest, s.pending = e :: rest ∧
        applyInput e { (if s.status.busy then s.takeTurn else s) with pending := rest } = .next t) := by
  unfold step machineStep at h
  split at h
  · exact .inl ⟨‹_›, h⟩
  · rename_i hm
    refine .inr ?_
    have hm' : s.engineMoves = false := by simpa using hm
    unfold hostStep at h
    split at h
    · cases h
      exact .inl ⟨hm', ‹_›, rfl⟩
    · exact .inr ⟨hm', _, _, ‹_›, h⟩

/-- When the engine moves it is busy and reset is released. -/
theorem engineMoves_busy {s : State} (h : s.engineMoves = true) :
    s.status.busy = true ∧ s.resetLine = false := by
  unfold State.engineMoves at h
  simp only [Bool.and_eq_true, Bool.not_eq_true'] at h
  exact ⟨h.1.1, h.1.2⟩

end Sys2Proof.Machine
end

