-- ==== Sys2Proof/Laws/HostProgram.lean ====
section
/-! SUPPORT. What the host's accesses do on the machine: the lemmas that proofs about host programs cite. -/
namespace Sys2Proof.Machine

variable {s t u : State} {a : Access}

@[simp] theorem State.issue_cmd (a : Access) (s : State) : (s.issue a).cmd = s.cmd := rfl
@[simp] theorem State.issue_status (a : Access) (s : State) : (s.issue a).status = s.status := rfl
@[simp] theorem State.issue_dp (a : Access) (s : State) : (s.issue a).dp = s.dp := rfl
@[simp] theorem State.issue_resetLine (a : Access) (s : State) : (s.issue a).resetLine = s.resetLine := rfl
@[simp] theorem State.issue_schedule (a : Access) (s : State) : (s.issue a).schedule = s.schedule := rfl
@[simp] theorem State.issue_responses (a : Access) (s : State) : (s.issue a).responses = s.responses := rfl
@[simp] theorem State.issue_pending (a : Access) (s : State) :
    (s.issue a).pending = s.pending ++ [.access a] := rfl

/-- A step that is not the engine's takes the oldest input. -/
theorem step_input {e : Input} {rest : List Input} (hm : s.engineMoves = false)
    (hp : s.pending = e :: rest) :
    step s = applyInput e { (if s.status.busy then s.takeTurn else s) with pending := rest } := by
  unfold step machineStep hostStep
  rw [hm, hp]
  rfl

theorem settle_nil (bound : Nat) (h : s.pending = []) : settle bound s = some s := by
  cases bound <;> simp [settle, h]

theorem settle_next (bound : Nat) (h : s.pending ≠ []) (hs : step s = .next t) :
    settle (bound + 1) s = settle bound t := by
  simp [settle, h, hs]

/-- The state in which an access that goes first reaches the block. -/
def State.hostTurn (s : State) : State := if s.status.busy then s.takeTurn else s

/-- No access leaves an input pending that was not. -/
theorem busAccess_pending (a : Access) (s : State) : (s.busAccess a).pending = s.pending := by
  rcases busAccess_cases a s with ⟨r, e⟩ | e | ⟨d, x, -, -, -, e⟩ <;> rw [e]
  · rfl
  · rfl
  · rcases writeEffect_cases s d x with e | ⟨-, e⟩ | ⟨-, e | e | ⟨f, -, e⟩⟩ <;> rw [e] <;> rfl

/-- An access that the host makes at its turn, or while the engine is idle, with no other input pending. -/
theorem hostAccess_at_turn (hp : s.pending = []) (hr : s.resetLine = false)
    (hm : (s.issue a).engineMoves = false) :
    hostAccess a s =
      ((s.hostTurn.busAccess a).responses.getLast?).map fun r => (s.hostTurn.busAccess a, r) := by
  have hturn : ({ (if (s.issue a).status.busy then (s.issue a).takeTurn else s.issue a) with
      pending := [] } : State) = s.hostTurn := by
    clear hm
    cases hb : s.status.busy <;> simp only [State.issue_status, State.hostTurn, hb] <;>
    · cases s
      subst hp
      rfl
  have hturn_line : s.hostTurn.resetLine = false := by
    unfold State.hostTurn
    split <;> simp [hr]
  have hstep : step (s.issue a) = .next (s.hostTurn.busAccess a) := by
    rw [step_input hm (e := .access a) (rest := []) (by simp [hp]), hturn]
    simp [applyInput, hturn_line]
  have hempty : (s.hostTurn.busAccess a).pending = [] := by
    rw [busAccess_pending]
    unfold State.hostTurn
    split <;> simp [hp]
  unfold hostAccess
  simp only [State.issue_pending, hp, List.nil_append, List.length_singleton]
  rw [settle_next 1 (by simp [hp]) hstep, settle_nil 1 hempty]
  rfl

/-- An access after any first step, the engine's for one: what that step leaves is settled by one step more. -/
theorem hostAccess_after_step (hp : s.pending = [])
    (hs : step (s.issue a) = .next u) :
    hostAccess a s = (settle 1 u).bind fun t => t.responses.getLast?.map fun r => (t, r) := by
  unfold hostAccess
  simp only [State.issue_pending, hp, List.nil_append, List.length_singleton]
  rw [settle_next 1 (by simp [hp]) hs]

end Sys2Proof.Machine
end

