-- ==== Sys2Proof/Laws/Inv.lean ====
section
/-! SUPPORT. Small facts about the invariant, for the operations that build a state. -/
namespace Sys2Proof.Machine

/-- The buffers' part of the invariant. -/
structure State.BuffersOk (s : State) : Prop where
  ibuf_wf : Memory.wf s.ibuf = true
  ibuf_within : Memory.within s.ibufSz.bytes s.ibuf = true
  obuf_wf : Memory.wf s.obuf = true
  obuf_within : Memory.within s.obufSz.bytes s.obuf = true

theorem State.Inv.buffers {s : State} (h : s.Inv) : s.BuffersOk :=
  ⟨h.ibuf_wf, h.ibuf_within, h.obuf_wf, h.obuf_within⟩

theorem Status.accepted_legal (f : Status) : f.accepted.Legal := by
  constructor <;> simp

theorem Status.reset_legal : Status.reset.Legal := by
  constructor <;> simp

/-- No error kind has the code 0, and none has a code above 8 (60_exceptions.md R190). -/
theorem ErrKind.code_ne_zero (k : ErrKind) : k.code ≠ 0 := by cases k <;> decide

theorem ErrKind.code_le (k : ErrKind) : k.code.toNat ≤ 8 := by cases k <;> decide

theorem Status.failed_legal (f : Status) (k : ErrKind) : (f.failed k).Legal := by
  constructor
  · simp
  · simp
  · simpa using k.code_ne_zero
  · simpa using k.code_le

/-- The free values between commands stay in their ranges (10_state.md R34 to R36). -/
theorem Datapath.unspecified_inRange (draw inLen : Nat) (z : Config.BufSize) :
    (Datapath.unspecified draw inLen z.bytes).InRange z.bytes where
  nd_le := by
    have := (Config.freeNd draw).isLt
    simp only [Datapath.unspecified, BitVec.toNat_ofNat]
    omega
  digits_le := by
    intro x hx
    simp only [Datapath.unspecified, Vector.mem_ofFn] at hx
    obtain ⟨k, rfl⟩ := hx
    have := (Config.freeDigit draw k.val).isLt
    simp only [BitVec.toNat_ofNat]
    omega
  outPos_le := by
    have h1 : Config.freeOutPos draw % (z.bytes + 1) < z.bytes + 1 := Nat.mod_lt _ (Nat.succ_pos _)
    have h2 := bytes_bounds z
    simp only [Datapath.unspecified, atMost, BitVec.toNat_ofNat]
    omega

theorem Datapath.reset_inRange (obufBytes : Nat) : Datapath.reset.InRange obufBytes where
  nd_le := by decide
  digits_le := by
    intro x hx
    simp only [Datapath.reset, Vector.mem_replicate] at hx
    simp [hx.2]
  outPos_le := Nat.zero_le _

/-- A state in which a command has just been accepted meets the invariant. -/
theorem State.accept_inv {s : State} (w : Word) (hb : s.BuffersOk)
    (hd : s.dp.InRange s.obufSz.bytes) (hr : s.resetLine = false) : (s.accept w).Inv where
  status_legal := by rw [State.accept_status]; exact Status.accepted_legal s.status
  busy_results := by simp
  err_results := by simp
  one_result := by simp
  no_result := by simp
  outLen_le := by simp
  result_lt := by simp
  busy_fetch := by simp
  datapath_range := ⟨hd.nd_le, hd.digits_le, Nat.zero_le _⟩
  output_known := by simp
  ibuf_wf := hb.ibuf_wf
  ibuf_within := hb.ibuf_within
  obuf_wf := hb.obuf_wf
  obuf_within := hb.obuf_within
  reset_values := by simp [hr]

end Sys2Proof.Machine
end

