-- ==== Sys2Proof/Laws/PerInstr.lean ====
section
/-! SUPPORT. Statements for all commands, made one command at a time. -/
namespace Sys2Proof.Laws

/-- An encoded command has the command's OP, RSV = 0, and the command's IMM (30_encoding.md R70, R80). -/
def EncodedFields.Statement (i : Instr) : Prop :=
  i.wf = true → opField (encode i) = opcodeOf i ∧ rsvField (encode i) = 0 ∧ immField (encode i) = immOf i

theorem encodedFields_of_bounds (op imm : Nat) (hop : op < 16) (himm : imm ≤ 65535) :
    opField (BitVec.ofNat 32 (imm * 65536 + op)) = op ∧
      rsvField (BitVec.ofNat 32 (imm * 65536 + op)) = 0 ∧
      immField (BitVec.ofNat 32 (imm * 65536 + op)) = imm := by
  have h : (BitVec.ofNat 32 (imm * 65536 + op)).toNat = imm * 65536 + op := by
    rw [BitVec.toNat_ofNat]
    omega
  unfold opField rsvField immField
  rw [h]
  omega

theorem EncodedFields.nop : EncodedFields.Statement .nop := fun _ => encodedFields_of_bounds 0 0 (by omega) (by omega)

theorem EncodedFields.enc45 : EncodedFields.Statement .enc45 := fun _ => encodedFields_of_bounds 1 0 (by omega) (by omega)

theorem EncodedFields.dec45 : EncodedFields.Statement .dec45 := fun _ => encodedFields_of_bounds 2 0 (by omega) (by omega)

theorem EncodedFields.encqr : EncodedFields.Statement .encqr := fun _ => encodedFields_of_bounds 3 0 (by omega) (by omega)

theorem EncodedFields.decqr : EncodedFields.Statement .decqr := fun _ => encodedFields_of_bounds 4 0 (by omega) (by omega)

theorem EncodedFields.d2c (imm : Nat) : EncodedFields.Statement (.d2c imm) := fun h =>
  encodedFields_of_bounds 5 imm (by omega) (by simpa [Instr.wf, immFits] using h)

theorem EncodedFields.c2d (imm : Nat) : EncodedFields.Statement (.c2d imm) := fun h =>
  encodedFields_of_bounds 6 imm (by omega) (by simpa [Instr.wf, immFits] using h)

theorem EncodedFields.b2d (imm : Nat) : EncodedFields.Statement (.b2d imm) := fun h =>
  encodedFields_of_bounds 7 imm (by omega) (by simpa [Instr.wf, immFits] using h)

theorem EncodedFields.d2b (imm : Nat) : EncodedFields.Statement (.d2b imm) := fun h =>
  encodedFields_of_bounds 8 imm (by omega) (by simpa [Instr.wf, immFits] using h)

end Sys2Proof.Laws
end

