-- ==== Sys2Proof/Tests/Slice0.lean ====
section
/-! SUPPORT. Tests of the model against the spec's own examples (95_test_vectors.md and the rules' examples),
and a witness for the hypotheses of every statement. Every expected value is the spec's. -/
namespace Sys2Proof.Tests

open Sys2Proof.Machine Sys2Proof.Claims

/-! Well-formedness: an ill-formed term for each check (30_encoding.md R80). -/

theorem test_wf_refuses_d2c : (Instr.d2c 65536).wf = false := by decide
theorem test_wf_refuses_c2d : (Instr.c2d 65536).wf = false := by decide
theorem test_wf_refuses_b2d : (Instr.b2d 65536).wf = false := by decide
theorem test_wf_refuses_d2b : (Instr.d2b 65536).wf = false := by decide
theorem test_wf_takes_the_largest : (Instr.d2c 65535).wf = true := by decide

/-! Decoding, from the words of V-ENC-1 to V-ENC-17. -/

theorem test_decode_nop : decode 0x00000000 = .legal .nop := by decide
theorem test_decode_enc45 : decode 0x00000001 = .legal .enc45 := by decide
theorem test_decode_dec45 : decode 0x00000002 = .legal .dec45 := by decide
theorem test_decode_encqr : decode 0x00000003 = .legal .encqr := by decide
theorem test_decode_decqr : decode 0x00000004 = .legal .decqr := by decide
theorem test_decode_d2c : decode 0b00000000001011000000000000000101 = .legal (.d2c 44) := by decide
theorem test_decode_d2c_top : decode 0xFFFF0005 = .legal (.d2c 65535) := by decide
theorem test_decode_c2d : decode 0b00000000011000010000000000000110 = .legal (.c2d 0x61) := by decide
theorem test_decode_b2d : decode 0b00000000000001110000000000000111 = .legal (.b2d 7) := by decide
theorem test_decode_d2b : decode 0b00000000000010110000000000001000 = .legal (.d2b 11) := by decide
theorem test_decode_reserved_op :
    decode 0x00000009 = .illegal .reservedOp ∧ decode 0x0000000F = .illegal .reservedOp ∧
      decode 0xFFFFFFFF = .illegal .reservedOp := by decide
theorem test_decode_reserved_bits :
    decode 0x00000011 = .illegal .reservedBits ∧ decode 0x00008001 = .illegal .reservedBits ∧
      decode 0x00050015 = .illegal .reservedBits := by decide
theorem test_decode_imm_not_zero :
    decode 0x00010001 = .illegal .immNotZero ∧ decode 0x00010004 = .illegal .immNotZero := by decide
theorem test_table_word : decodeTableWord 32 0x002C0005 = some (.d2c 44) := by decide

/-! The pure functions (L1-1, V-ENC45, V-DEC45, V-ENCQR, V-DECQR, V-CAP). -/

theorem test_enc45_hello : enc45 (codes "Hello!!") none = .ok (codes "%69 VD92EX0") := by decide +kernel
theorem test_enc45_base45 : enc45 (codes "base-45") none = .ok (codes "UJCLQE7W581") := by decide +kernel
theorem test_dec45_ietf : dec45 (codes "QED8WEX0") none = .ok (codes "ietf!") := by decide
theorem test_dec45_errors :
    dec45 (codes "GGW") none = .err .accumulatorOverflow ∧ dec45 (codes "a") none = .err .truncatedInput ∧
      dec45 (codes "::a") none = .err .invalidCharacter ∧
      dec45 (codes ":::A") none = .err .accumulatorOverflow := by decide
theorem test_encqr_corners :
    encqr (List.replicate 7 0xFF) none = .ok (codes "25ACZ%F36*U") ∧
      encqr [1, 2, 3, 4, 5, 6, 7, 8] none = .ok (codes "00G*8TDS-M/08") := by decide +kernel
theorem test_decqr_discards :
    decqr (codes ":::::::::::") none = .ok [0x43, 0xBE, 0xFF, 0x21, 0x4C, 0x8B, 0x94] ∧
      decqr (codes "BB8") none = .ok [0x58, 0xFA] := by decide
theorem test_decqr_errors :
    decqr (codes "aAAA") none = .err .invalidCharacter ∧
      decqr (codes "AAAA") none = .err .invalidChunkLength := by decide
theorem test_capacity :
    enc45 (codes "Hello!!") (some 10) = .err .outputOverflow ∧
      dec45 (codes "BB8:::") (some 1) = .err .outputOverflow ∧
      dec45 (codes "BB8:::") (some 2) = .err .accumulatorOverflow ∧
      encqr (List.replicate 8 1) (some 13) = .ok (codes "00G A8/$39701") := by decide +kernel
/-- A cut inside a group can give the output of the whole, against the last sentence of
70_reset_and_hazards.md R229 (NOTES.md). -/
theorem test_cut_inside_a_group_can_agree :
    enc45 [0] none = .ok (codes "00") ∧ enc45 [0, 0] none = .ok (codes "000") ∧
      enc45 [0, 0, 0] none = .ok (codes "00" ++ codes "000") := by decide +kernel

/-! The engine on a small state: 16-byte buffers. -/

/-- A state after reset whose buffers hold 16 bytes each. -/
def small : State := { State.reset with ibufSz := ⟨3⟩, obufSz := ⟨3⟩ }

/-- The host has written these bytes to IBUF and their number to IN_LEN. -/
def holding (bytes : List Byte) : State :=
  { small with inLen := BitVec.ofNat 32 bytes.length, ibuf := (List.range bytes.length).zip bytes }

/-- The command has been accepted. -/
def accepted (i : Instr) (bytes : List Byte) : State := (holding bytes).accept (encode i)

/-- What a test looks at: STATUS, OUT_LEN, RESULT and the known bytes of OBUF. -/
def seen (r : Host.Outcome State Fault Refusal) : Option (Word × Word × Word × Memory) :=
  match r with
  | .next t => some (t.status.word, t.outLen, t.result, t.obuf)
  | .fault _ => none
  | .refused _ => none

theorem test_exec_nop : seen (exec .nop (accepted .nop [])) = some (0x2, 0, 0, []) := by decide
theorem test_exec_enc45 :
    seen (exec .enc45 (accepted .enc45 [65, 66])) =
      some (0x2, 3, 0, [(0, 0x42), (1, 0x42), (2, 0x38)]) := by decide
theorem test_exec_enc45_out_of_range :
    seen (exec .enc45 { accepted .enc45 [65] with inLen := 17 }) = some (0x704, 0, 0, []) := by decide
theorem test_exec_dec45 :
    seen (exec .dec45 (accepted .dec45 (codes "QED8WEX0"))) =
      some (0x2, 5, 0, [(0, 0x69), (1, 0x65), (2, 0x74), (3, 0x66), (4, 0x21)]) := by decide
theorem test_exec_dec45_invalid :
    seen (exec .dec45 (accepted .dec45 (codes "QED8WEX0a"))) = some (0x204, 0, 0, []) := by decide
theorem test_exec_encqr :
    seen (exec .encqr (accepted .encqr (codes "Hello!!"))) =
      some (0x2, 11, 0, (List.range 11).zip (codes "0Q-*2/.MZ B")) := by decide
theorem test_exec_encqr_overflow :
    seen (exec .encqr { accepted .encqr (codes "Hello!!") with obufSz := ⟨1⟩ }) =
      some (0x804, 0, 0, []) := by decide
theorem test_exec_decqr :
    seen (exec .decqr (accepted .decqr (codes ":::::::::::"))) =
      some (0x2, 7, 0, (List.range 7).zip [0x43, 0xBE, 0xFF, 0x21, 0x4C, 0x8B, 0x94]) := by decide
theorem test_exec_decqr_length :
    seen (exec .decqr (accepted .decqr (codes "AAAA"))) = some (0x504, 0, 0, []) := by decide
theorem test_exec_d2c :
    seen (exec (.d2c 44) (accepted (.d2c 44) [])) = some (0x2, 0, 0x3A, []) ∧
      seen (exec (.d2c 45) (accepted (.d2c 45) [])) = some (0x104, 0, 0, []) := ⟨by decide, by decide⟩
theorem test_exec_c2d :
    seen (exec (.c2d 0x5A) (accepted (.c2d 0x5A) [])) = some (0x2, 0, 35, []) ∧
      seen (exec (.c2d 0x130) (accepted (.c2d 0x130) [])) = some (0x204, 0, 0, []) := ⟨by decide, by decide⟩
theorem test_exec_b2d :
    seen (exec (.b2d 7) (accepted (.b2d 7) [])) = some (0x2, 0, 11, []) ∧
      seen (exec (.b2d 8) (accepted (.b2d 8) [])) = some (0x504, 0, 0, []) := ⟨by decide, by decide⟩
theorem test_exec_d2b :
    seen (exec (.d2b 9) (accepted (.d2b 9) [])) = some (0x2, 0, 6, []) ∧
      seen (exec (.d2b 12) (accepted (.d2b 12) [])) = some (0x504, 0, 0, []) := ⟨by decide, by decide⟩
/-- P2: the tail of the earlier output is left unchanged. -/
theorem test_exec_keeps_the_tail :
    seen (exec .dec45 { accepted .dec45 (codes "BB8") with obuf := [(1, 7), (2, 8)] }) =
      some (0x2, 2, 0, [(0, 0x41), (1, 0x42), (2, 8)]) := by decide

/-! Steps and the host bus (V-PRO, V-HZ, P1). -/

theorem test_step_runs_the_fetched_word :
    seen (step (State.reset.withFetchWord 32 0x002C0005)) = some (0x2, 0, 0x3A, []) ∧
      seen (step (State.reset.withFetchWord 32 0x00000001)) = some (0x2, 0, 0, []) := ⟨by decide, by decide⟩
theorem test_step_illegal_word :
    seen (step (State.reset.withFetchWord 32 0x00000009)) = some (0x604, 0, 0, []) := by decide

/-- The host's inputs are these. -/
def given (inputs : List Input) (s : State) : State := { s with pending := inputs }

/-- P1, steps 2 to 4 and the engine's step, then the reads of STATUS, OUT_LEN and ID. -/
def programP1 : List Input :=
  [.access (wr 0x10000 0x00004241), .access (wr 0x00008 2), .access (wr 0 1),
    .access (rd 0x00004), .access (rd 0x0000C), .access (rd 0x00014)]

/-- The data the reads returned. -/
def readData (r : Host.Outcome State Fault Refusal) : Option (List Word) :=
  match r with
  | .next t => some (t.responses.filterMap Response.data)
  | .fault _ => none
  | .refused _ => none

theorem test_program_p1 :
    readData (core.run 7 (given programP1 small)) = some [0x2, 3, 0x070B072D] := by decide

theorem test_bad_accesses :
    (small.busAccess (rd 0x00020)).responses = [⟨.busErr, some 0⟩] ∧
      (small.busAccess (rd 0x00002)).responses = [⟨.busErr, some 0⟩] ∧
      (small.busAccess (rd 0x10010)).responses = [⟨.busErr, some 0⟩] ∧
      (small.busAccess (wr 0x30000 1)).responses = [⟨.busErr, none⟩] := by decide
theorem test_busy_write_is_dropped :
    ((accepted .enc45 [65, 66]).busAccess (wr 0x00008 5)).status.word = 0x9 ∧
      ((accepted .enc45 [65, 66]).busAccess (wr 0x00008 5)).inLen = 2 := by decide
theorem test_window_read :
    ((holding (codes "Hello!!")).busAccess (rd 0x10000)).responses = [⟨.ok, some 0x6C6C6548⟩] := by
  decide
theorem test_access_during_reset :
    (match step { given [.access (rd 0)] small with resetLine := true } with
      | .fault .accessDuringReset => true
      | .next _ => false
      | .refused _ => false) = true := by decide

/-- R220, R223, R225: after the release the host's access is taken, and the registers read as reset left
them. -/
theorem test_release_reset :
    readData (core.run 4 (given [.assertReset, .releaseReset, .access (rd 0x00008), .access (rd 0x00014)]
      { small with inLen := 5 })) = some [0, 0x070B072D] := by decide

/-! Witnesses: the hypotheses of each statement can be met, at the edges of their ranges. -/

theorem holding_buffers (bytes : List Byte)
    (h : Memory.wf (holding bytes).ibuf = true ∧ Memory.within 16 (holding bytes).ibuf = true) :
    (holding bytes).BuffersOk := ⟨h.1, h.2, rfl, rfl⟩

theorem accepted_ok (i : Instr) (bytes : List Byte)
    (h : Memory.wf (holding bytes).ibuf = true ∧ Memory.within 16 (holding bytes).ibuf = true) :
    Accepted (accepted i bytes) := ⟨State.accept_inv _ (holding_buffers bytes h) (Datapath.reset_inRange _) rfl, rfl⟩

/-- An accepted command whose IN_LEN is `n`, its IBUF bytes unknown. -/
def acceptedLen (i : Instr) (n : Word) : State := State.accept (encode i) { small with inLen := n }

theorem acceptedLen_ok (i : Instr) (n : Word) : Accepted (acceptedLen i n) :=
  ⟨State.accept_inv _ ⟨rfl, rfl, rfl, rfl⟩ (Datapath.reset_inRange _) rfl, rfl⟩

theorem witness_DecodeEncodeAgree : (Instr.d2c 65535).wf = true := by decide
theorem witness_EncodeDecodeAgree : decode 0xFFFF0008 = .legal (.d2b 65535) := by decide
theorem witness_LegalWordsFitOneRow :
    (∃ r, r ∈ opcodeTable ∧ r.fits 0xFFFF0008 = true) ∧
      (∀ r, r ∈ opcodeTable → r.fits 0x00010004 = false) := by decide
theorem witness_DecodeFollowsTheFields :
    decode 0x00000009 = .illegal .reservedOp ∧ decode 0x00000010 = .illegal .reservedBits ∧
      decode 0x00010004 = .illegal .immNotZero ∧ decode 0xFFFF0005 = .legal (.d2c 65535) := by decide
theorem witness_AlphabetIsExact : (0x3B : Byte) ∉ alphaRom := by decide
theorem witness_AlphabetLookupsAreInverse :
    (44 : Nat) ≤ 44 ∧ (0x3A : Byte) ∈ alphaRom ∧ d2c 44 = .ok 0x3A := by decide
theorem witness_ChunkTableLaws :
    (7 : Nat) ≤ 7 ∧ (6 : Nat) < 7 ∧ b2d 6 = .ok 9 ∧ b2d 7 = .ok 11 ∧ d2b 11 = .ok 7 := by decide
theorem witness_D2cGivesTheCharacter : (44 : Nat) ≤ 44 ∧ (44 : Nat) < 45 := by decide
theorem witness_C2dGivesTheDigit :
    (44 : Nat) ≤ 44 ∧ ∀ d, d ≤ 44 → (alphaRom.getD d 0).toNat ≠ 0x130 := by decide
theorem witness_CountLookupsAnswer :
    (7 : Nat) < 8 ∧ ((12 : Nat) = 1 ∨ (12 : Nat) = 4 ∨ (12 : Nat) = 7 ∨ (12 : Nat) = 10 ∨ (11 : Nat) < 12) := by
  decide
theorem witness_NopAndLookupFrame :
    (∃ t, exec (.b2d 7) small = .next t ∧ t.status.done = true) ∧
      (∃ t, exec (.b2d 8) small = .next t ∧ t.status.done = false) := ⟨⟨_, rfl, rfl⟩, ⟨_, rfl, rfl⟩⟩
theorem witness_Enc45MeetsItsContract :
    (Accepted (acceptedLen .enc45 17) ∧ (acceptedLen .enc45 17).ibufSz.bytes < (acceptedLen .enc45 17).inLen.toNat) ∧
      (Accepted (acceptedLen .enc45 11) ∧ (acceptedLen .enc45 11).inLen.toNat ≤ (acceptedLen .enc45 11).ibufSz.bytes ∧
        (acceptedLen .enc45 11).obufSz.bytes < enc45Length (acceptedLen .enc45 11).inLen.toNat) ∧
      (Accepted (acceptedLen .enc45 10) ∧ (acceptedLen .enc45 10).inLen.toNat ≤ (acceptedLen .enc45 10).ibufSz.bytes ∧
        enc45Length (acceptedLen .enc45 10).inLen.toNat ≤ (acceptedLen .enc45 10).obufSz.bytes) :=
  ⟨⟨acceptedLen_ok _ _, by decide⟩, ⟨acceptedLen_ok _ _, by decide, by decide⟩,
    ⟨acceptedLen_ok _ _, by decide, by decide⟩⟩
theorem witness_Dec45MeetsItsContract :
    (Accepted (acceptedLen .dec45 17) ∧ (acceptedLen .dec45 17).ibufSz.bytes < (acceptedLen .dec45 17).inLen.toNat) ∧
      (Accepted (accepted .dec45 (codes "GGW")) ∧
        dec45 (accepted .dec45 (codes "GGW")).input (some 16) = .err .accumulatorOverflow) ∧
      (Accepted (accepted .dec45 (codes "FGW")) ∧
        dec45 (accepted .dec45 (codes "FGW")).input (some 16) = .ok [0xFF, 0xFF]) :=
  ⟨⟨acceptedLen_ok _ _, by decide⟩, ⟨accepted_ok _ _ (by decide), by decide⟩,
    ⟨accepted_ok _ _ (by decide), by decide⟩⟩
theorem witness_EncqrMeetsItsContract :
    (Accepted (acceptedLen .encqr 17) ∧ (acceptedLen .encqr 17).ibufSz.bytes < (acceptedLen .encqr 17).inLen.toNat) ∧
      (Accepted (acceptedLen .encqr 11) ∧ (acceptedLen .encqr 11).inLen.toNat ≤ (acceptedLen .encqr 11).ibufSz.bytes ∧
        (acceptedLen .encqr 11).obufSz.bytes < encqrLength (acceptedLen .encqr 11).inLen.toNat) ∧
      (Accepted (acceptedLen .encqr 10) ∧ (acceptedLen .encqr 10).inLen.toNat ≤ (acceptedLen .encqr 10).ibufSz.bytes ∧
        encqrLength (acceptedLen .encqr 10).inLen.toNat ≤ (acceptedLen .encqr 10).obufSz.bytes) :=
  ⟨⟨acceptedLen_ok _ _, by decide⟩, ⟨acceptedLen_ok _ _, by decide, by decide⟩,
    ⟨acceptedLen_ok _ _, by decide, by decide⟩⟩
theorem witness_DecqrMeetsItsContract :
    (Accepted (acceptedLen .decqr 17) ∧ (acceptedLen .decqr 17).ibufSz.bytes < (acceptedLen .decqr 17).inLen.toNat) ∧
      (Accepted (accepted .decqr (codes "AAAA")) ∧
        decqr (accepted .decqr (codes "AAAA")).input (some 16) = .err .invalidChunkLength) ∧
      (Accepted (accepted .decqr (codes "8BB")) ∧
        decqr (accepted .decqr (codes "8BB")).input (some 16) = .ok [65, 66]) :=
  ⟨⟨acceptedLen_ok _ _, by decide⟩, ⟨accepted_ok _ _ (by decide), by decide⟩,
    ⟨accepted_ok _ _ (by decide), by decide⟩⟩
theorem witness_BufferCommandFrame :
    (accepted .dec45 (codes "BB8")).dp.outPos = 0 ∧
      (∃ t, exec .dec45 (accepted .dec45 (codes "BB8")) = .next t ∧ t.status.done = true) ∧
      (∃ t, exec .dec45 (accepted .dec45 (codes "B")) = .next t ∧ t.status.done = false) :=
  ⟨rfl, ⟨_, rfl, rfl⟩, ⟨_, rfl, rfl⟩⟩
theorem witness_CapacityOnlyCutsOff :
    enc45 [0] none = .ok (codes "00") ∧ enc45 [0] (some 2) = .ok (codes "00") ∧
      enc45 [0] (some 1) = .err .outputOverflow := by decide
theorem witness_Enc45OutputLength : Accepted (acceptedLen .enc45 0) ∧ (acceptedLen .enc45 0).inLen = 0 :=
  ⟨acceptedLen_ok _ _, rfl⟩
theorem witness_Enc45SingleByte : (44 : Byte).toNat ≤ 44 ∧ 45 ≤ (45 : Byte).toNat := by decide
theorem witness_Dec45ErrorOrder :
    (codes "BB8").length % 3 = 0 ∧ dec45 (codes "BB8") (some 3) = .ok [0x41, 0x42] ∧
      (codes "GGW").length = 3 ∧ dec45 (codes "GGW") none = .err .accumulatorOverflow ∧
      (0x61 : Byte) ∉ alphaRom ∧ c2d 0x47 = .ok 16 ∧ c2d 0x57 = .ok 32 ∧ 65535 < 16 + 45 * 16 + 2025 * 32 ∧
      (codes "QED").length = 3 ∧ dec45 (codes "QED") none = .ok [0x69, 0x65] ∧
      3 < [(0x41 : Byte), 0x42].length + [(0x69 : Byte), 0x65].length ∧
      (codes ":a").length < 3 ∧ dec45 (codes ":a") none = .err .invalidCharacter ∧
      (codes "X0").length < 3 ∧ dec45 (codes "X0") none = .ok [0x21] ∧
      2 < [(0x41 : Byte), 0x42].length + [(0x21 : Byte)].length ∧
      dec45 (codes "BB8") (some 2) = .ok [0x41, 0x42] := by decide
theorem witness_Dec45OverflowBound :
    c2d 0x47 = .ok 16 ∧ c2d 0x58 = .ok 33 ∧ c2d 0x57 = .ok 32 ∧ c2d 0x56 = .ok 31 := by decide
theorem witness_Dec45FinalPair :
    c2d (0x3A : Byte).toNat = .ok 44 ∧ enc45 [0xFF] none = .ok [0x55, 0x35] ∧
      c2d (0x55 : Byte).toNat = .ok 30 ∧ c2d (0x35 : Byte).toNat = .ok 5 := by decide
theorem witness_Dec45Lengths :
    dec45 (codes "QED8WEX0") none = .ok (codes "ietf!") ∧ Accepted (acceptedLen .dec45 0) ∧
      (acceptedLen .dec45 0).inLen = 0 := ⟨by decide, acceptedLen_ok _ _, rfl⟩
theorem witness_TripletRoundTrip :
    enc45 [0xFF, 0xFF, 0xFF] none = .ok (codes "FGWU5") ∧
      enc45 [0xFF, 0xFF, 0xFF] (some 5) = .ok (codes "FGWU5") := by decide +kernel
theorem witness_RoundTripOnTheEngine_triplet :
    Accepted (accepted .enc45 [65, 66]) ∧ Accepted (accepted .dec45 (codes "BB8")) ∧
      ∃ t, exec .enc45 (accepted .enc45 [65, 66]) = .next t ∧ t.status.done = true ∧
        (accepted .dec45 (codes "BB8")).inLen = t.outLen ∧
        (∀ k, k < t.outLen.toNat → (accepted .dec45 (codes "BB8")).ibufAt k = t.obufAt k) ∧
        t.outLen.toNat ≤ (accepted .dec45 (codes "BB8")).ibufSz.bytes ∧
        (accepted .enc45 [65, 66]).inLen.toNat ≤ (accepted .dec45 (codes "BB8")).obufSz.bytes :=
  ⟨accepted_ok _ _ (by decide), accepted_ok _ _ (by decide), _, rfl, rfl, rfl,
    fun k hk => match k, hk with | 0, _ => rfl | 1, _ => rfl | 2, _ => rfl, by decide, by decide⟩
theorem witness_RoundTripOnTheEngine_chunked :
    Accepted (accepted .encqr [65, 66]) ∧ Accepted (accepted .decqr (codes "8BB")) ∧
      ∃ t, exec .encqr (accepted .encqr [65, 66]) = .next t ∧ t.status.done = true ∧
        (accepted .decqr (codes "8BB")).inLen = t.outLen ∧
        (∀ k, k < t.outLen.toNat → (accepted .decqr (codes "8BB")).ibufAt k = t.obufAt k) ∧
        t.outLen.toNat ≤ (accepted .decqr (codes "8BB")).ibufSz.bytes ∧
        (accepted .encqr [65, 66]).inLen.toNat ≤ (accepted .decqr (codes "8BB")).obufSz.bytes :=
  ⟨accepted_ok _ _ (by decide), accepted_ok _ _ (by decide), _, rfl, rfl, rfl,
    fun k hk => match k, hk with | 0, _ => rfl | 1, _ => rfl | 2, _ => rfl, by decide, by decide⟩
theorem witness_EncqrOutputLength : Accepted (acceptedLen .encqr 0) ∧ (acceptedLen .encqr 0).inLen = 0 :=
  ⟨acceptedLen_ok _ _, rfl⟩
theorem witness_EncqrDigitsSpellTheValue :
    1 ≤ [(0xFF : Byte)].length ∧ (List.replicate 7 (0xFF : Byte)).length ≤ 7 := by decide
theorem witness_DecqrErrorOrder :
    (codes "00000000000").length % 11 = 0 ∧
      decqr (codes "00000000000") (some 7) = .ok (List.replicate 7 0) ∧
      (∃ x, x ∈ codes "aAAA" ∧ x ∉ alphaRom) ∧ (codes "AAAA").length = 4 ∧
      (∀ x, x ∈ codes "AAAA" → x ∈ alphaRom) ∧ decqr (codes "AA") none = .ok [0xCC] ∧
      7 < (List.replicate 7 (0 : Byte)).length + [(0xCC : Byte)].length := by decide
theorem witness_DecqrBytesSpellTheValue :
    charsToDigits (codes ":::::::::::") = .ok (List.replicate 11 44) ∧ d2b 11 = .ok 7 ∧
      charsToDigits (codes "::") = .ok [44, 44] ∧ d2b 2 = .ok 1 := by decide
theorem witness_DecqrLengths :
    decqr (codes "00G*8TDS-M/08") none = .ok [1, 2, 3, 4, 5, 6, 7, 8] ∧ Accepted (acceptedLen .decqr 0) ∧
      (acceptedLen .decqr 0).inLen = 0 := ⟨by decide, acceptedLen_ok _ _, rfl⟩
theorem witness_ChunkedRoundTrip :
    encqr [1, 2, 3, 4, 5, 6, 7, 8] none = .ok (codes "00G*8TDS-M/08") ∧
      encqr [1, 2, 3, 4, 5, 6, 7, 8] (some 13) = .ok (codes "00G*8TDS-M/08") := by decide +kernel
theorem witness_DigitErrorOnlyFromD2c :
    Accepted (accepted (.d2c 45) []) ∧
      ∃ t, exec (.d2c 45) (accepted (.d2c 45) []) = .next t ∧ t.status.errcode = 1 :=
  ⟨accepted_ok _ _ (by decide), _, rfl, rfl⟩
theorem witness_PiecesConvertToTheWhole :
    enc45 [65, 66] none = .ok (codes "BB8") ∧ enc45 [0] none = .ok (codes "00") ∧
      encqr (List.replicate 7 0xFF) none = .ok (codes "25ACZ%F36*U") ∧
      encqr [0xFF] none = .ok (codes "5U") ∧ dec45 (codes "QED8WE") none = .ok (codes "ietf") ∧
      dec45 (codes "X0") none = .ok (codes "!") ∧
      decqr (codes "25ACZ%F36*U") none = .ok (List.replicate 7 0xFF) ∧
      decqr (codes "5U") none = .ok [0xFF] := by decide +kernel
theorem witness_BadAccessIsBusError :
    AccessSize.bits8 ≠ .bits32 ∧ (0x00002 : BitVec 18).toNat % 4 ≠ 0 ∧
      0x00020 ≤ (0x00020 : BitVec 18).toNat ∧ (0x0FFFC : BitVec 18).toNat ≤ 0x0FFFF ∧
      0x30000 ≤ (0x30000 : BitVec 18).toNat ∧
      0x10000 + small.ibufSz.bytes ≤ (0x10010 : BitVec 18).toNat ∧ (0x1FFFC : BitVec 18).toNat ≤ 0x1FFFF ∧
      0x20000 + small.obufSz.bytes ≤ (0x20010 : BitVec 18).toNat ∧ (0x2FFFC : BitVec 18).toNat ≤ 0x2FFFF := by
  decide
theorem witness_WindowsAreLittleEndian :
    4 * 3 < small.ibufSz.bytes ∧ (0x1000C : BitVec 18).toNat = 0x10000 + 4 * 3 ∧
      4 * 3 < small.obufSz.bytes ∧ (0x2000C : BitVec 18).toNat = 0x20000 + 4 * 3 ∧
      small.status.busy = false ∧ (accepted .nop []).status.busy = true := by decide
theorem witness_ReadOnlyWritesAreIgnored :
    (0x0001C : BitVec 18).toNat % 4 = 0 ∧ (0x0001C : BitVec 18).toNat = 0x0001C ∧
      (0x2000C : BitVec 18).toNat % 4 = 0 ∧ 0x20000 ≤ (0x2000C : BitVec 18).toNat ∧
      (0x2000C : BitVec 18).toNat < 0x20000 + small.obufSz.bytes := by decide
theorem witness_ReadsHaveNoSideEffect : (rd 0x20000).op = .read ∧ small.status.busy = false := by decide
theorem witness_BusyWritesAreDropped :
    (accepted .nop []).status.busy = true ∧ (0x1000C : BitVec 18).toNat % 4 = 0 ∧
      0x10000 ≤ (0x1000C : BitVec 18).toNat ∧
      (0x1000C : BitVec 18).toNat < 0x10000 + (accepted .nop []).ibufSz.bytes := by decide
theorem witness_BusyReads :
    Accepted (accepted .nop []) ∧ (0x2000C : BitVec 18).toNat % 4 = 0 ∧
      (0x2000C : BitVec 18).toNat < 0x20000 + (accepted .nop []).obufSz.bytes :=
  ⟨accepted_ok _ _ (by decide), by decide⟩
theorem witness_InLenIsStoredWhole : small.status.busy = false := by decide
/-- A host write of NOP at the head of the bus, with a turn of the host's. -/
def nopWaiting (s : State) : State := { given [.access (wr 0 0)] s with schedule := [.host] }
theorem witness_CmdWriteIsAccepted :
    small.resetLine = false ∧ (nopWaiting small).pending = .access (wr 0 0) :: [] ∧
      (nopWaiting small).status.busy = false ∧ (nopWaiting (accepted .nop [])).status.busy = true ∧
      (nopWaiting (accepted .nop [])).engineMoves = false := by decide
theorem witness_StepRunsTheDecodedCommand :
    (accepted (.d2c 44) []).status.busy = true ∧ (accepted (.d2c 44) []).resetLine = false ∧
      (accepted (.d2c 44) []).pending = [] ∧ decode (accepted (.d2c 44) []).dp.cur = .legal (.d2c 44) ∧
      decode (small.accept 0x00000009).dp.cur = .illegal .reservedOp := by decide
theorem witness_IllegalWordEndsWithError :
    decode 0x00010001 = .illegal .immNotZero ∧ small.status.busy = false ∧ small.resetLine = false ∧
      (given [.access (wr 0 0x00010001)] small).pending = [.access (wr 0 0x00010001)] := by decide
theorem witness_ErrorTermination :
    Accepted (accepted .dec45 (codes "B")) ∧
      ∃ t, exec .dec45 (accepted .dec45 (codes "B")) = .next t ∧ t.status.err = true :=
  ⟨accepted_ok _ _ (by decide), _, rfl, rfl⟩
theorem witness_OutcomeDependsOnInputOnly :
    Accepted (accepted .dec45 (codes "BB8")) ∧
      Accepted { accepted .dec45 (codes "BB8") with obuf := [(0, 1)] } ∧
      (∃ t, engineStep (accepted .dec45 (codes "BB8")) = .next t) ∧
      (∃ t, engineStep { accepted .dec45 (codes "BB8") with obuf := [(0, 1)] } = .next t) :=
  ⟨accepted_ok _ _ (by decide),
    ⟨State.accept_inv (encode .dec45) (s := { holding (codes "BB8") with obuf := [(0, 1)] })
      ⟨by decide, by decide, by decide, by decide⟩ (Datapath.reset_inRange _) rfl, rfl⟩, ⟨_, rfl⟩, ⟨_, rfl⟩⟩
theorem witness_AssertingResetAbandons :
    (given [.assertReset] small).engineMoves = false ∧
      ({ given [.assertReset] (accepted .nop []) with schedule := [.host] } : State).engineMoves = false := by
  decide
theorem witness_AssertingResetAbandons_release :
    ({ given [.releaseReset] small with resetLine := true } : State).engineMoves = false ∧
      ({ given [.releaseReset] (accepted .nop []) with schedule := [.host] } : State).engineMoves = false ∧
      (accepted .nop []).engineMoves = true ∧
      (given [.access (rd 0)] small).pending.head? ≠ some .assertReset ∧
      (∃ t, step (given [.access (rd 0)] small) = .next t) :=
  ⟨rfl, rfl, rfl, by decide, _, rfl⟩
theorem witness_StepKeepsTheInvariant :
    (accepted .dec45 (codes "BB8")).Inv ∧ ∃ t, step (accepted .dec45 (codes "BB8")) = .next t :=
  ⟨(accepted_ok _ _ (by decide)).1, _, rfl⟩
theorem witness_EveryCommandEnds :
    (nopWaiting (accepted .nop [])).status.busy = true ∧ (nopWaiting (accepted .nop [])).resetLine = false := by
  decide
theorem witness_OnlyResetStopsTheHost :
    (given [.access (rd 0)] { small with resetLine := true }).pending = .access (rd 0) :: [] ∧
      ({ small with resetLine := true } : State).resetLine = true ∧ small.resetLine = false := by decide
/-- For FlagsAreWrittenByEvents, WhoWritesWhat and AccessesAreAnsweredInOrder. -/
theorem witness_steps :
    (∃ t, step (accepted .nop []) = .next t) ∧ (accepted .nop []).engineMoves = true ∧
      (∃ t, step (nopWaiting (accepted .nop [])) = .next t) ∧
      (nopWaiting (accepted .nop [])).engineMoves = false ∧
      (nopWaiting (accepted .nop [])).pending.head? ≠ some .assertReset :=
  ⟨⟨_, rfl⟩, rfl, ⟨_, rfl⟩, rfl, by decide⟩

/-- The state of P4 before step 10, with the turns given. -/
def beforeP4 (turns : List Agent) : State :=
  { given [.access (wr 0 (encode .enc45)), .access (wr 0 (encode .nop))] (holding [0x41, 0x42]) with
    schedule := turns }

theorem beforeP4_inv (turns : List Agent) : (beforeP4 turns).Inv where
  status_legal := Status.reset_legal
  busy_results := fun _ => ⟨rfl, rfl⟩
  err_results := fun _ => ⟨rfl, rfl⟩
  one_result := .inl rfl
  no_result := fun _ => ⟨rfl, rfl⟩
  outLen_le := Nat.zero_le _
  result_lt := Nat.zero_lt_succ _
  busy_fetch := fun h => nomatch h
  datapath_range := Datapath.reset_inRange _
  output_known := fun _ h => nomatch h
  ibuf_wf := rfl
  ibuf_within := rfl
  obuf_wf := rfl
  obuf_within := rfl
  reset_values := fun h => nomatch h

theorem witness_EarlySecondCommand (turns : List Agent) :
    (beforeP4 turns).Inv ∧ (beforeP4 turns).status.busy = false ∧ (beforeP4 turns).resetLine = false ∧
      (beforeP4 turns).inLen = 2 ∧ (beforeP4 turns).ibufAt 0 = 0x41 ∧ (beforeP4 turns).ibufAt 1 = 0x42 ∧
      (beforeP4 turns).schedule = turns :=
  ⟨beforeP4_inv turns, rfl, rfl, rfl, rfl, rfl, rfl⟩

/-- The state of ProtocolConverts for "QED8WEX0": idle, the accesses of LOADIN and RUN pending. -/
def loading : State := given ((loadIn (codes "QED8WEX0") ++ [runCommand .dec45]).map .access) small

theorem loading_inv : loading.Inv where
  status_legal := Status.reset_legal
  busy_results := fun _ => ⟨rfl, rfl⟩
  err_results := fun _ => ⟨rfl, rfl⟩
  one_result := .inl rfl
  no_result := fun _ => ⟨rfl, rfl⟩
  outLen_le := Nat.zero_le _
  result_lt := Nat.zero_lt_succ _
  busy_fetch := fun h => nomatch h
  output_known := fun _ h => nomatch h
  ibuf_wf := rfl
  ibuf_within := rfl
  obuf_wf := rfl
  obuf_within := rfl
  reset_values := fun h => nomatch h
  datapath_range := Datapath.reset_inRange _

/-- The state of ProtocolConverts's last clause: nothing pending, and turns that make WAIT loop. -/
def idleWithTurns : State := { small with schedule := [.host, .host, .engine] }

theorem idleWithTurns_inv : idleWithTurns.Inv :=
  ⟨loading_inv.1, loading_inv.2, loading_inv.3, loading_inv.4, loading_inv.5, loading_inv.6, loading_inv.7,
    loading_inv.8, loading_inv.9, loading_inv.10, loading_inv.11, loading_inv.12, loading_inv.13,
    loading_inv.14, loading_inv.15⟩

theorem witness_ProtocolConverts_program :
    contractOf .dec45 = some dec45 ∧ idleWithTurns.Inv ∧ idleWithTurns.status.busy = false ∧
      idleWithTurns.resetLine = false ∧ idleWithTurns.pending = [] ∧
      (codes "QED8WEX0").length ≤ idleWithTurns.ibufSz.bytes :=
  ⟨rfl, idleWithTurns_inv, rfl, rfl, rfl, by decide⟩

theorem witness_ProtocolConverts :
    contractOf .dec45 = some dec45 ∧ loading.Inv ∧ loading.status.busy = false ∧ loading.resetLine = false ∧
      (codes "QED8WEX0").length ≤ loading.ibufSz.bytes ∧
      dec45 (codes "QED8WEX0") (some loading.obufSz.bytes) = .ok (codes "ietf!") :=
  ⟨rfl, loading_inv, rfl, rfl, by decide, by decide⟩

/-! Host programs (30_encoding.md R80 to R82). -/

theorem test_load_in :
    loadIn (codes "Hello!!") =
      [wr 0x10000 0x6C6C6548, wr 0x10004 0x0021216F, wr 0x00008 7] := by decide
/-- Two turns of the host's while the command runs: WAIT reads BUSY = 1 twice, then DONE. -/
theorem test_wait_loops :
    (hostWait { accepted .nop [] with schedule := [.host, .host, .engine] }).map
      (fun t => t.responses.filterMap Response.data) = some [1, 1, 2] := by decide
/-- 95_test_vectors.md P2: the round trip with the host's copy of OBUF to IBUF; the unspecified top byte of w2
is written as 0x00. -/
def programP2 : List HostInstr :=
  [.loadIn (codes "Hello!!"), .run .encqr, .wait, .rd 0x0000C "n", .rd 0x20000 "w0", .rd 0x20004 "w1"] ++
  [.rd 0x20008 "w2", .wr 0x10000 (.named "w0"), .wr 0x10004 (.named "w1"), .wr 0x10008 (.word 0x0042205A)] ++
  [.wr 0x00008 (.named "n"), .run .decqr, .wait, .rd 0x0000C "m", .rd 0x20004 "v1", .readOut "s"]
/-- What P2's host has named at the end. -/
def namedByP2 : Option (List Word × Option (List Byte)) :=
  (small.runProgram programP2).map fun r =>
    (["n", "w1", "m", "v1"].filterMap fun name => r.words.lookup name, r.strings.lookup "s")
theorem test_program_p2 :
    namedByP2 = some ([11, 0x4D2E2F32, 7, 0x4D21216F], some (codes "Hello!!")) := by decide +kernel
theorem test_read_out :
    readOutWords 5 = [rd 0x20000, rd 0x20004] ∧
      readOutBytes 5 [0x66746569, 0xFFFFFF21] = codes "ietf!" := by decide
theorem test_assemble_lines :
    assemble "NOP" = some .nop ∧ assemble "D2C #44" = some (.d2c 44) ∧
      assemble "B2D #7" = some (.b2d 7) ∧ assemble "D2B #0xB" = some (.d2b 11) := by decide +kernel
theorem test_assemble_corners :
    assemble "C2D #'a'" = some (.c2d 0x61) ∧ assemble "C2D #0x100" = some (.c2d 0x100) ∧
      assemble "D2C #65536" = none ∧ assemble "D2C" = none ∧ assemble "ENC45 #1" = none := by decide +kernel

end Sys2Proof.Tests
end

section
/-! SUPPORT. The proofs about the state (10_state.md): the alphabet's two ROMs, and what a write to the host bus
reaches. -/
namespace Sys2Proof.Proofs

open Sys2Proof.Machine Sys2Proof.Claims

/-! The ROMs of the alphabet (10_state.md R38 to R42). -/

/-- R41: ALPHA holds the codes of the spec's string in order. -/
theorem alphaRom_eq_codes : alphaRom = codes alphabet := by decide

theorem alphaRom_length : alphaRom.length = 45 := by decide

theorem alphaRom_nodup : alphaRom.Nodup := by decide

/-- R42: every digit value in REV stands at the byte that ALPHA holds for it. -/
theorem alphaRom_of_revRom : ∀ x : Byte, ∀ d ∈ revRom.getD x.toNat none, alphaRom[d]? = some x := by decide

/-- A byte that ALPHA does not hold is UNMAPPED in REV. -/
theorem revRom_of_not_mem {x : Byte} (hx : x ∉ alphaRom) : revRom.getD x.toNat none = none :=
  Option.eq_none_iff_forall_not_mem.2 fun d hd => hx (List.mem_of_getElem? (alphaRom_of_revRom x d hd))

/-- An UNMAPPED number has no digit value, inside REV's 256 entries or past them (41_alphabet.md R104). -/
theorem c2d_of_unmapped {x : Nat} (hx : revRom.getD x none = none) : c2d x = .err .invalidCharacter := by
  unfold c2d
  split
  · rfl
  · rw [hx]

/-- Settles O6: REV inverts ALPHA, so a byte that ALPHA does not hold is UNMAPPED. -/
theorem alphabetIsExact : Obligations.AlphabetIsExact :=
  ⟨alphaRom_eq_codes, alphaRom_length, alphaRom_nodup, fun _ hx => c2d_of_unmapped (revRom_of_not_mem hx)⟩

/-! Host writes (10_state.md R22, R31; 20_memory.md R50 to R54). -/

/-- R22: below the IBUF window the address map holds the host registers only. -/
theorem target_register (s : State) {offset : Nat} (h : offset < ibufWindow) :
    s.target offset = registerAt offset := by
  unfold State.target
  rw [if_neg (by omega), if_neg (by simp only [ibufWindow, obufWindow] at h ⊢; omega)]

/-- R22: an offset in OBUF's capacity is a word of OBUF, whatever IBUF's capacity. -/
theorem target_obufWord (s : State) {offset : Nat} (hlow : obufWindow ≤ offset)
    (hhigh : offset < obufWindow + s.obufSz.bytes) :
    s.target offset = some (.obufWord (offset - obufWindow)) := by
  obtain ⟨-, hibuf, -⟩ := bytes_bounds s.ibufSz
  unfold State.target
  rw [if_neg (by simp only [ibufWindow, obufWindow] at hlow ⊢; omega), if_pos ⟨hlow, hhigh⟩]

/-- An aligned write to a mapped offset has its effect there and is answered OK (20_memory.md R50). -/
theorem busAccess_wr_of_target {s : State} {A : BitVec 18} {x : Target} (d : Word) (haligned : A.toNat % 4 = 0)
    (hx : s.target A.toNat = some x) : s.busAccess (wr A d) = (s.writeEffect d x).respond okWrite := by
  simp [State.busAccess, Access.aligned, wr, haligned, hx]

/-- An aligned write to a target that ignores writes changes nothing but the responses (R31). -/
theorem onlyResponds_of_ignored {s : State} {A : BitVec 18} {x : Target} {d : Word} (haligned : A.toNat % 4 = 0)
    (hx : s.target A.toNat = some x) (hignored : s.writeEffect d x = s) :
    OnlyResponds { code := .ok, data := none } s (s.busAccess (wr A d)) := by
  rw [busAccess_wr_of_target d haligned hx, hignored]
  rfl

/-- The register case of `onlyResponds_of_ignored`: the offset is a number, which fixes the register. -/
theorem onlyResponds_of_ignored_register {s : State} {A : BitVec 18} {d : Word} {offset : Nat} (x : Target)
    (haligned : A.toNat % 4 = 0) (hA : A.toNat = offset) (hlow : offset < ibufWindow)
    (hx : registerAt offset = some x) (hignored : s.writeEffect d x = s) :
    OnlyResponds { code := .ok, data := none } s (s.busAccess (wr A d)) := by
  subst hA
  exact onlyResponds_of_ignored haligned ((target_register s hlow).trans hx) hignored

/-- Settles O40: each of the offsets reaches a target whose write has no effect. -/
theorem readOnlyWritesAreIgnored : Obligations.ReadOnlyWritesAreIgnored := by
  intro s A d haligned hA
  rcases hA with hA | hA | hA | hA | hA | hA | ⟨hlow, hhigh⟩
  · exact onlyResponds_of_ignored_register .status haligned hA (by decide) rfl rfl
  · exact onlyResponds_of_ignored_register .outLen haligned hA (by decide) rfl rfl
  · exact onlyResponds_of_ignored_register .result haligned hA (by decide) rfl rfl
  · exact onlyResponds_of_ignored_register .id haligned hA (by decide) rfl rfl
  · exact onlyResponds_of_ignored_register .ibufSz haligned hA (by decide) rfl rfl
  · exact onlyResponds_of_ignored_register .obufSz haligned hA (by decide) rfl rfl
  · exact onlyResponds_of_ignored haligned (target_obufWord s hlow hhigh) rfl

end Sys2Proof.Proofs
end

section
/-! SUPPORT. The proofs about the address space (20_memory.md): the bus errors, and the buffer windows with their
byte lanes. -/
namespace Sys2Proof.Proofs

open Sys2Proof.Machine Sys2Proof.Claims

/-! Offsets that map to nothing (20_memory.md R52, R53). -/

/-- R22: OBUF_SIZE, at 0x0001C, is the last register. -/
theorem registerAt_eq_none {offset : Nat} (h : 0x20 ≤ offset) : registerAt offset = none := by
  obtain ⟨k, rfl⟩ := Nat.exists_eq_add_of_le' h
  rfl

/-- R53: an offset past the registers and outside both buffers maps to nothing. -/
theorem target_eq_none {s : State} {offset : Nat} (hregister : 0x20 ≤ offset)
    (hibuf : ¬ (ibufWindow ≤ offset ∧ offset < ibufWindow + s.ibufSz.bytes))
    (hobuf : ¬ (obufWindow ≤ offset ∧ offset < obufWindow + s.obufSz.bytes)) :
    s.target offset = none := by
  rw [State.target, if_neg hibuf, if_neg hobuf, registerAt_eq_none hregister]

theorem aligned_iff (a : Access) : a.aligned = true ↔ a.size = .bits32 ∧ a.offset.toNat % 4 = 0 := by
  simp [Access.aligned]

theorem busError_eq (op : AccessOp) :
    busError op = { code := .busErr, data := if op = .read then some 0 else none } := by
  cases op <;> rfl

/-- An access that is not an aligned word, or maps to nothing, is answered BUSERR and does nothing else. -/
theorem onlyResponds_busError {s : State} {a : Access}
    (h : a.aligned = true → s.target a.offset.toNat = none) :
    OnlyResponds { code := .busErr, data := if a.op = .read then some 0 else none } s (s.busAccess a) := by
  have hrespond : s.busAccess a = s.respond (busError a.op) := by
    by_cases haligned : a.aligned = true
    · simp [State.busAccess, haligned, h haligned]
    · simp [State.busAccess, haligned]
  rw [hrespond, busError_eq]
  rfl

/-- Settles O36: an aligned word at one of these offsets maps to nothing; a capacity is a multiple of 4. -/
theorem badAccessIsBusError : Obligations.BadAccessIsBusError := by
  refine ⟨fun a s hbad => onlyResponds_busError fun haligned => ?_, fun z k => ?_⟩
  · obtain ⟨hsize, hoffset⟩ := (aligned_iff a).1 haligned
    obtain ⟨-, hibuf, -⟩ := bytes_bounds s.ibufSz
    obtain ⟨-, hobuf, -⟩ := bytes_bounds s.obufSz
    rcases hbad with hsub | hmisaligned | hunmapped
    · exact absurd hsize hsub
    · exact absurd hoffset hmisaligned
    · exact target_eq_none (by omega) (by simp only [ibufWindow]; omega) (by simp only [obufWindow]; omega)
  · obtain ⟨-, -, hwords⟩ := bytes_bounds z
    omega

/-! The buffer windows (20_memory.md R54). -/

/-- R22: an offset in IBUF's capacity is a word of IBUF. -/
theorem target_ibufWord (s : State) {offset : Nat} (hlow : ibufWindow ≤ offset)
    (hhigh : offset < ibufWindow + s.ibufSz.bytes) :
    s.target offset = some (.ibufWord (offset - ibufWindow)) :=
  if_pos ⟨hlow, hhigh⟩

/-- `target_ibufWord` for an offset given by its distance into the window. -/
theorem target_ibufWindow_add {s : State} {offset first : Nat} (hoffset : offset = ibufWindow + first)
    (hfirst : first < s.ibufSz.bytes) : s.target offset = some (.ibufWord first) := by
  rw [target_ibufWord s (by omega) (by omega), hoffset, Nat.add_sub_cancel_left]

/-- `target_obufWord` for an offset given by its distance into the window. -/
theorem target_obufWindow_add {s : State} {offset first : Nat} (hoffset : offset = obufWindow + first)
    (hfirst : first < s.obufSz.bytes) : s.target offset = some (.obufWord first) := by
  rw [target_obufWord s (by omega) (by omega), hoffset, Nat.add_sub_cancel_left]

/-- An aligned read of a mapped offset reads what is there (20_memory.md R50). -/
theorem busAccess_rd_of_target {s : State} {A : BitVec 18} {x : Target} (haligned : A.toNat % 4 = 0)
    (hx : s.target A.toNat = some x) : s.busAccess (rd A) = s.readTarget x := by
  simp [State.busAccess, Access.aligned, rd, haligned, hx]

theorem readTarget_obufWord_idle {s : State} (first : Nat) (hidle : s.status.busy = false) :
    s.readTarget (.obufWord first) = s.respond (okRead (laneWord s.obufAt first)) := by
  simp [State.readTarget, State.readValue, hidle]

/-- R232: OBUF is not read while BUSY = 1. -/
theorem readTarget_obufWord_busy {s : State} (first : Nat) (hbusy : s.status.busy = true) :
    s.readTarget (.obufWord first) = s.readBusyObuf := by
  simp [State.readTarget, hbusy]

theorem guarded_idle {s : State} (write : State → State) (hidle : s.status.busy = false) :
    s.guarded write = write s := by
  simp [State.guarded, hidle]

/-- R230: a write while BUSY = 1 is dropped. -/
theorem guarded_busy {s : State} (write : State → State) (hbusy : s.status.busy = true) :
    s.guarded write = s.dropWrite := by
  simp [State.guarded, hbusy]

@[simp] theorem respond_ibufAt (s : State) (r : Response) (a : Nat) : (s.respond r).ibufAt a = s.ibufAt a := rfl

@[simp] theorem dropWrite_ibufAt (s : State) (a : Nat) : s.dropWrite.ibufAt a = s.ibufAt a := rfl

/-! The byte lanes (20_memory.md R54). -/

/-- R54: the four lanes of a word that the host reads. Each append adds one byte below the ones before it, so a lane
is either its low byte or a lane of what stands above it. -/
theorem laneWord_lanes (byteAt : Nat → Byte) (first : Nat) :
    (laneWord byteAt first).extractLsb' 0 8 = byteAt first ∧
      (laneWord byteAt first).extractLsb' 8 8 = byteAt (first + 1) ∧
      (laneWord byteAt first).extractLsb' 16 8 = byteAt (first + 2) ∧
      (laneWord byteAt first).extractLsb' 24 8 = byteAt (first + 3) := by
  simp [laneWord, BitVec.extractLsb'_append_eq_ite (w := 8)]

/-- R54: a store to a word of IBUF puts lane `k` at `first + k`. -/
theorem storeIbuf_ibufAt_lane (s : State) (first : Nat) (d : Word) {k : Nat} (hk : k < 4) :
    (s.storeIbuf first d).ibufAt (first + k) = laneByte d k := by
  simp only [State.ibufAt, State.storeIbuf, Memory.read_write]
  have hlane : k = 0 ∨ k = 1 ∨ k = 2 ∨ k = 3 := by omega
  rcases hlane with rfl | rfl | rfl | rfl <;> simp

/-- A store to a word of IBUF leaves every byte outside the word. -/
theorem storeIbuf_ibufAt_other (s : State) {first a : Nat} (d : Word) (ha : a < first ∨ first + 4 ≤ a) :
    (s.storeIbuf first d).ibufAt a = s.ibufAt a := by
  simp only [State.ibufAt, State.storeIbuf]
  rw [Memory.read_write_other _ _ (by omega), Memory.read_write_other _ _ (by omega),
    Memory.read_write_other _ _ (by omega), Memory.read_write_other _ _ (by omega)]

/-- A write to a word of IBUF while BUSY = 0 stores it. -/
theorem busAccess_wr_ibufWord_idle {s : State} {A : BitVec 18} {first : Nat} (d : Word)
    (haligned : A.toNat % 4 = 0) (hx : s.target A.toNat = some (.ibufWord first))
    (hidle : s.status.busy = false) :
    s.busAccess (wr A d) = (s.storeIbuf first d).respond okWrite := by
  rw [busAccess_wr_of_target d haligned hx, State.writeEffect, guarded_idle _ hidle]

/-- A write to a word of IBUF while BUSY = 1 is dropped. -/
theorem busAccess_wr_ibufWord_busy {s : State} {A : BitVec 18} {first : Nat} (d : Word)
    (haligned : A.toNat % 4 = 0) (hx : s.target A.toNat = some (.ibufWord first))
    (hbusy : s.status.busy = true) :
    s.busAccess (wr A d) = s.dropWrite.respond okWrite := by
  rw [busAccess_wr_of_target d haligned hx, State.writeEffect, guarded_busy _ hbusy]

/-- Settles O37: each offset reaches its word; the lanes of a read are `laneWord`'s, those of a write
`storeIbuf`'s. -/
theorem windowsAreLittleEndian : Obligations.WindowsAreLittleEndian := by
  refine ⟨fun s A k hk hA => ?_, fun s A k hk hA => ?_⟩
  · have haligned : A.toNat % 4 = 0 := by omega
    have hx := target_ibufWindow_add hA hk
    refine ⟨⟨_, busAccess_rd_of_target haligned hx, laneWord_lanes s.ibufAt (4 * k)⟩,
      fun d hidle => ?_, fun d hbusy a => ?_⟩
    · rw [busAccess_wr_ibufWord_idle d haligned hx hidle]
      exact ⟨_, rfl, storeIbuf_ibufAt_lane s (4 * k) d (k := 0) (by omega),
        storeIbuf_ibufAt_lane s (4 * k) d (k := 1) (by omega),
        storeIbuf_ibufAt_lane s (4 * k) d (k := 2) (by omega),
        storeIbuf_ibufAt_lane s (4 * k) d (k := 3) (by omega), fun a => storeIbuf_ibufAt_other s d⟩
    · simp [busAccess_wr_ibufWord_busy d haligned hx hbusy]
  · have haligned : A.toNat % 4 = 0 := by omega
    have hx := target_obufWindow_add hA hk
    have hread := busAccess_rd_of_target haligned hx
    refine ⟨fun hidle => ?_, fun hbusy => ?_, fun d => onlyResponds_of_ignored haligned hx rfl⟩
    · rw [hread, readTarget_obufWord_idle _ hidle]
      exact ⟨_, rfl, laneWord_lanes s.obufAt (4 * k)⟩
    · rw [hread, readTarget_obufWord_busy _ hbusy]
      exact ⟨_, rfl⟩

end Sys2Proof.Proofs
end

section
/-! SUPPORT. The proofs about the command words (30_encoding.md): what decoding answers by the fields OP, RSV and
IMM, R74's table, and the end of an illegal word. -/
namespace Sys2Proof.Proofs

open Sys2Proof.Machine Sys2Proof.Claims

/-! The fields of a word and the numbers of a command (30_encoding.md R70, R72). -/

theorem toNat_opSlice (w : Word) : (w.extractLsb' 0 4).toNat = opField w := by
  simp [opField, BitVec.extractLsb'_toNat]

theorem toNat_rsvSlice (w : Word) : (w.extractLsb' 4 12).toNat = rsvField w := by
  simp [rsvField, BitVec.extractLsb'_toNat, Nat.shiftRight_eq_div_pow]

theorem toNat_immSlice (w : Word) : (w.extractLsb' 16 16).toNat = immField w := by
  have hw := w.isLt
  simp only [immField, BitVec.extractLsb'_toNat, Nat.shiftRight_eq_div_pow]
  omega

/-- R72: OP is 0 to 8. -/
theorem opcodeOf_le (i : Instr) : opcodeOf i ≤ 8 := by cases i <;> simp [opcodeOf]

/-- R72, R76: the commands of OP 0 to 4 take no immediate. -/
theorem immOf_eq_zero {i : Instr} (h : opcodeOf i ≤ 4) : immOf i = 0 := by
  cases i with
  | nop | enc45 | dec45 | encqr | decqr => rfl
  | d2c | c2d | b2d | d2b => exact absurd h (by simp [opcodeOf])

/-- R72: every OP from 0 to 8 is a command's, with any immediate that its row allows. -/
theorem exists_instr_of_fields {op imm : Nat} (hop : op ≤ 8) (himm : op ≤ 4 → imm = 0) :
    ∃ i, opcodeOf i = op ∧ immOf i = imm :=
  match op with
  | 0 => ⟨.nop, rfl, (himm (by omega)).symm⟩
  | 1 => ⟨.enc45, rfl, (himm (by omega)).symm⟩
  | 2 => ⟨.dec45, rfl, (himm (by omega)).symm⟩
  | 3 => ⟨.encqr, rfl, (himm (by omega)).symm⟩
  | 4 => ⟨.decqr, rfl, (himm (by omega)).symm⟩
  | 5 => ⟨.d2c imm, rfl, rfl⟩
  | 6 => ⟨.c2d imm, rfl, rfl⟩
  | 7 => ⟨.b2d imm, rfl, rfl⟩
  | 8 => ⟨.d2b imm, rfl, rfl⟩
  | op + 9 => absurd hop (by omega)

/-! Decoding (30_encoding.md R76). -/

theorem decodeNoImm_eq_legal_iff {imm : Nat} {i j : Instr} :
    decodeNoImm imm i = .legal j ↔ imm = 0 ∧ i = j := by
  by_cases h : imm = 0 <;> simp [decodeNoImm, h]

/-- A command comes out of its own OP and IMM only. -/
theorem decodeOp_eq_legal_iff {op imm : Nat} {i : Instr} :
    decodeOp op imm = .legal i ↔ op = opcodeOf i ∧ imm = immOf i := by
  constructor
  · intro h
    unfold decodeOp at h
    split at h
    case h_1 | h_2 | h_3 | h_4 | h_5 =>
      obtain ⟨rfl, rfl⟩ := decodeNoImm_eq_legal_iff.1 h
      exact ⟨rfl, rfl⟩
    case h_6 | h_7 | h_8 | h_9 =>
      cases h
      exact ⟨rfl, rfl⟩
    case h_10 => cases h
  · rintro ⟨rfl, rfl⟩
    cases i <;> rfl

/-- R76: a word decodes to the command whose OP and IMM it holds, with RSV = 0. -/
theorem decode_eq_legal_iff {w : Word} {i : Instr} :
    decode w = .legal i ↔ opField w = opcodeOf i ∧ rsvField w = 0 ∧ immField w = immOf i := by
  have hop := opcodeOf_le i
  unfold decode
  split
  · simp only [reduceCtorEq, false_iff]
    omega
  · split <;> simp_all [decodeOp_eq_legal_iff]

/-- R76: the decoder has two answers. -/
theorem decode_illegal_of_not_legal {w : Word} (h : ∀ i, decode w ≠ .legal i) : ∃ y, decode w = .illegal y := by
  cases hw : decode w with
  | legal i => exact absurd hw (h i)
  | illegal y => exact ⟨y, rfl⟩

theorem decode_legal_of_fields {w : Word} (hop : opField w ≤ 8) (hrsv : rsvField w = 0)
    (himm : opField w ≤ 4 → immField w = 0) :
    ∃ i, decode w = .legal i ∧ opcodeOf i = opField w ∧ immOf i = immField w := by
  obtain ⟨i, hi, hi'⟩ := exists_instr_of_fields hop himm
  exact ⟨i, decode_eq_legal_iff.2 ⟨hi.symm, hrsv, hi'.symm⟩, hi, hi'⟩

/-- Settles O5: the fields of a legal word are a command's, and a word whose fields are a command's is legal. -/
theorem decodeFollowsTheFields : Obligations.DecodeFollowsTheFields := by
  intro w
  simp only [toNat_opSlice, toNat_rsvSlice, toNat_immSlice]
  refine ⟨fun hbad => decode_illegal_of_not_legal fun i hi => ?_, fun hgood => ?_⟩
  · obtain ⟨hop, hrsv, himm⟩ := decode_eq_legal_iff.1 hi
    rcases hbad with hbad | hbad | ⟨hlow, hbad⟩
    · have := opcodeOf_le i
      omega
    · exact hbad hrsv
    · exact hbad (himm.trans (immOf_eq_zero (hop ▸ hlow)))
  · obtain ⟨i, hi, hop, himm⟩ := decode_legal_of_fields (w := w) (by omega) (by omega) (by omega)
    refine ⟨i, hi, ?_, himm⟩
    rw [← hop]
    cases i <;> rfl

/-! The match and mask table (30_encoding.md R74). -/

/-- R74: a row stands at the place of its OP, which is its match value; its mask frees IMM from OP 5 on. -/
theorem opcodeTable_row : ∀ r ∈ opcodeTable, opcodeTable[r.pattern.toNat]? = some r ∧ r.pattern.toNat ≤ 8 ∧
    r.mask.toNat = if r.pattern.toNat ≤ 4 then 2 ^ 32 - 1 else 2 ^ 16 - 1 := by decide

/-- R72, R74: every command has a row. -/
theorem exists_row (i : Instr) :
    ∃ r ∈ opcodeTable, r.pattern.toNat = opcodeOf i ∧ r.mnemonic = mnemonicOf i := by
  cases i <;> simp [opcodeTable, opcodeOf, mnemonicOf]

theorem row_eq_of_pattern_eq {r r' : TableRow} (hr : r ∈ opcodeTable) (hr' : r' ∈ opcodeTable)
    (h : r.pattern.toNat = r'.pattern.toNat) : r = r' := by
  have hplace := (opcodeTable_row r hr).1
  rw [h, (opcodeTable_row r' hr').1] at hplace
  exact (Option.some.inj hplace).symm

/-- R74 on the fields: the mask keeps the whole word, or its low 16 bits. -/
theorem fits_iff {r : TableRow} (hr : r ∈ opcodeTable) (w : Word) :
    r.fits w = true ↔
      opField w = r.pattern.toNat ∧ rsvField w = 0 ∧ (r.pattern.toNat ≤ 4 → immField w = 0) := by
  obtain ⟨-, hop, hmask⟩ := opcodeTable_row r hr
  have hw := w.isLt
  have hfits : r.fits w = true ↔ w.toNat &&& r.mask.toNat = r.pattern.toNat := by
    rw [TableRow.fits, beq_iff_eq, ← BitVec.toNat_inj, BitVec.toNat_and]
  rw [hfits, hmask]
  unfold opField rsvField immField
  split <;> rw [Nat.and_two_pow_sub_one_eq_mod] <;> omega

/-- Settles O4: a row is found by OP, and so is the command. -/
theorem legalWordsFitOneRow : Obligations.LegalWordsFitOneRow := by
  refine ⟨fun w r hr hfit => ?_, fun w hnone => decode_illegal_of_not_legal fun i hi => ?_,
    fun w r r' hr hr' hfit hfit' => ?_⟩
  · obtain ⟨hop, hrsv, himm⟩ := (fits_iff hr w).1 hfit
    obtain ⟨-, hle, -⟩ := opcodeTable_row r hr
    obtain ⟨i, hi, hiop, hiimm⟩ := decode_legal_of_fields (hop ▸ hle) hrsv (hop ▸ himm)
    obtain ⟨r', hr', hpattern, hmnemonic⟩ := exists_row i
    have hrow : r' = r := row_eq_of_pattern_eq hr' hr (hpattern.trans (hiop.trans hop))
    exact ⟨i, hi, hrow ▸ hmnemonic.symm, hiimm.trans (toNat_immSlice w).symm⟩
  · obtain ⟨hop, hrsv, himm⟩ := decode_eq_legal_iff.1 hi
    obtain ⟨r, hr, hpattern, -⟩ := exists_row i
    have hfit : r.fits w = true := (fits_iff hr w).2
      ⟨hop.trans hpattern.symm, hrsv, fun hlow => himm.trans (immOf_eq_zero (hpattern ▸ hlow))⟩
    exact absurd hfit (by simp [hnone r hr])
  · obtain ⟨hop, -⟩ := (fits_iff hr w).1 hfit
    obtain ⟨hop', -⟩ := (fits_iff hr' w).1 hfit'
    exact row_eq_of_pattern_eq hr hr' (hop.symm.trans hop')

/-- Settles O1: both directions on the spec's words, by evaluation. -/
theorem sampleWordsDecode : Obligations.SampleWordsDecode :=
  ⟨by decide, by decide, by decide⟩

/-! The end of an illegal word (30_encoding.md R78; 40_control.md R90, R91). -/

/-- While BUSY = 0 the engine has no move. -/
theorem engineMoves_idle {s : State} (hidle : s.status.busy = false) : s.engineMoves = false := by
  simp [State.engineMoves, hidle]

/-- A busy engine moves when the host has nothing to give and reset is released. -/
theorem engineMoves_of_no_input {s : State} (hbusy : s.status.busy = true) (hreset : s.resetLine = false)
    (hpending : s.pending = []) : s.engineMoves = true := by
  simp [State.engineMoves, hbusy, hreset, hpending]

theorem step_engine {s : State} (hm : s.engineMoves = true) : step s = engineStep s.takeTurn :=
  if_pos hm

theorem engineStep_illegal {s : State} {y : DecodeReject} (h : decode s.dp.cur = .illegal y) :
    engineStep s = .next (s.raise .illegalCommand) := by
  rw [engineStep, h]

/-- R90: a word written to CMD while BUSY = 0 is accepted. -/
theorem busAccess_wr_cmd_idle {s : State} (w : Word) (hidle : s.status.busy = false) :
    s.busAccess (wr 0 w) = (s.accept w).respond okWrite := by
  have hx : s.target (0 : BitVec 18).toNat = some .cmd := target_register s (by decide)
  rw [busAccess_wr_of_target w (by decide) hx, State.writeEffect, guarded_idle _ hidle]

/-- R90 as a step: the host's write to CMD, at its turn while BUSY = 0. -/
theorem step_wr_cmd_idle {s : State} {w : Word} {rest : List Input} (hidle : s.status.busy = false)
    (hreset : s.resetLine = false) (hpending : s.pending = .access (wr 0 w) :: rest) :
    step s = .next ((State.accept w { s with pending := rest }).respond okWrite) := by
  rw [step_input (engineMoves_idle hidle) hpending, if_neg (by simp [hidle]), applyInput,
    if_neg (by simp [hreset]), busAccess_wr_cmd_idle (s := { s with pending := rest }) w hidle]

/-- Settles O47: the write is accepted, and the engine's step that follows raises ILLEGAL_COMMAND, which changes
neither buffer. -/
theorem illegalWordEndsWithError : Obligations.IllegalWordEndsWithError := by
  intro s w y hy hidle hreset hpending
  have haccept := step_wr_cmd_idle hidle hreset hpending
  have hm : ((State.accept w { s with pending := [] }).respond okWrite).engineMoves = true :=
    engineMoves_of_no_input rfl hreset rfl
  have hend := (step_engine hm).trans (engineStep_illegal hy)
  exact ⟨_, _, haccept, rfl, rfl, hend, rfl, rfl, rfl, rfl, rfl, fun _ => rfl, fun _ => rfl⟩

end Sys2Proof.Proofs
end

section
/-! SUPPORT. The proofs about control (40_control.md): the acceptance of a command, and that its outcome depends
on nothing but its word and its input. -/
namespace Sys2Proof.Proofs

open Sys2Proof.Machine Sys2Proof.Claims

/-! The acceptance of a command, or its refusal (40_control.md R90). -/

/-- R90, R230: a word written to CMD while BUSY = 1 is dropped. -/
theorem busAccess_wr_cmd_busy {s : State} (w : Word) (hbusy : s.status.busy = true) :
    s.busAccess (wr 0 w) = s.dropWrite.respond okWrite := by
  have hx : s.target (0 : BitVec 18).toNat = some .cmd := target_register s (by decide)
  rw [busAccess_wr_of_target w (by decide) hx, State.writeEffect, guarded_busy _ hbusy]

/-- R90 as a step: the host's write to CMD, at its turn while BUSY = 1. -/
theorem step_wr_cmd_busy {s : State} {w : Word} {rest : List Input} (hbusy : s.status.busy = true)
    (hreset : s.resetLine = false) (hpending : s.pending = .access (wr 0 w) :: rest)
    (hm : s.engineMoves = false) :
    step s = .next ((State.dropWrite { s.takeTurn with pending := rest }).respond okWrite) := by
  rw [step_input hm hpending, if_pos hbusy, applyInput, if_neg (by simp [hreset]),
    busAccess_wr_cmd_busy (s := { s.takeTurn with pending := rest }) w hbusy]

/-- Settles O45: the step is the bus's write to CMD, which accepts the word while BUSY = 0 and drops it while
BUSY = 1. -/
theorem cmdWriteIsAccepted : Obligations.CmdWriteIsAccepted := by
  intro s w rest hreset hpending
  constructor
  · intro hidle
    exact ⟨_, step_wr_cmd_idle hidle hreset hpending, rfl, rfl, rfl, rfl, rfl, rfl, rfl, rfl, rfl, rfl, rfl,
      fun _ => rfl, fun _ => rfl, rfl, rfl⟩
  · intro hbusy hm
    exact ⟨_, step_wr_cmd_busy hbusy hreset hpending hm, rfl, rfl, rfl⟩

/-! Two runs side by side (40_control.md R97): computations that agree, and what the engine reads and writes. -/

/-- Both computations raise the same error, or both give values that stand in the relation. -/
inductive ResRel {α : Type} (R : α → α → Prop) : Res α → Res α → Prop where
  | ok {x y : α} (h : R x y) : ResRel R (.ok x) (.ok y)
  | err (k : ErrKind) : ResRel R (.err k) (.err k)

theorem ResRel.bind {α β : Type} {R : α → α → Prop} {Q : β → β → Prop} {r r' : Res α} {f f' : α → Res β}
    (h : ResRel R r r') (hf : ∀ x y, R x y → ResRel Q (f x) (f' y)) : ResRel Q (r.bind f) (r'.bind f') := by
  cases h with
  | ok hxy => exact hf _ _ hxy
  | err k => exact .err k

/-- Two computations that begin with the same one. -/
theorem ResRel.bind_same {α β : Type} {Q : β → β → Prop} {r : Res α} {f f' : α → Res β}
    (hf : ∀ x, r = .ok x → ResRel Q (f x) (f' x)) : ResRel Q (r.bind f) (r.bind f') := by
  cases r with
  | ok x => exact hf x rfl
  | err k => exact .err k

/-- The result registers as acceptance leaves them (R90) and as the passes of a buffer command keep them. -/
def Cleared (s : State) : Prop :=
  s.status.err = false ∧ s.status.errcode = 0 ∧ s.outLen = 0 ∧ s.result = 0

theorem cleared_of_accepted {s : State} (h : Accepted s) : Cleared s := by
  obtain ⟨hinv, hbusy⟩ := h
  obtain ⟨-, herr⟩ := hinv.status_legal.busy_alone hbusy
  obtain ⟨hlen, hresult⟩ := hinv.busy_results hbusy
  have hcode : s.status.errcode = 0 := Decidable.byContradiction fun hne => by
    rw [hinv.status_legal.errcode_iff.1 hne] at herr
    cases herr
  exact ⟨herr, hcode, hlen, hresult⟩

/-- Two runs of a buffer command with the same input are equally far: what a pass reads before it sets it, and
the output emitted so far. -/
structure SameRun (s s' : State) : Prop where
  cleared : Cleared s
  cleared' : Cleared s'
  inLen : s.inLen = s'.inLen
  ibufSz : s.ibufSz = s'.ibufSz
  obufSz : s.obufSz = s'.obufSz
  input : ∀ k, k < s.inLen.toNat → s.ibufAt k = s'.ibufAt k
  inPos : s.dp.inPos = s'.dp.inPos
  outPos : s.dp.outPos = s'.dp.outPos
  output : ∀ k, k < s.dp.outPos.toNat → s.obufAt k = s'.obufAt k

/-- A common IN_POS and an unchanged OUT_POS are all that the relation asks of a new datapath. -/
theorem SameRun.withDp {s s' : State} (h : SameRun s s') {d d' : Datapath} (hin : d.inPos = d'.inPos)
    (hout : d.outPos = s.dp.outPos) (hout' : d'.outPos = s'.dp.outPos) :
    SameRun { s with dp := d } { s' with dp := d' } where
  cleared := h.cleared
  cleared' := h.cleared'
  inLen := h.inLen
  ibufSz := h.ibufSz
  obufSz := h.obufSz
  input := h.input
  inPos := hin
  outPos := hout.trans (h.outPos.trans hout'.symm)
  output k hk := h.output k (by rwa [← hout])

theorem SameRun.consume {s s' : State} (h : SameRun s s') (k : Nat) : SameRun (s.consume k) (s'.consume k) :=
  h.withDp (congrArg (· + BitVec.ofNat 17 k) h.inPos) rfl rfl

theorem SameRun.loadAcc {s s' : State} (h : SameRun s s') (v : Acc) : SameRun (s.loadAcc v) (s'.loadAcc v) :=
  h.withDp h.inPos rfl rfl

theorem SameRun.remaining {s s' : State} (h : SameRun s s') : s.remaining = s'.remaining := by
  rw [State.remaining, State.remaining, h.inLen, h.inPos]

/-- Both runs read the same input byte, as long as it lies below IN_LEN. -/
theorem SameRun.peek {s s' : State} (h : SameRun s s') {k : Nat}
    (hk : s.dp.inPos.toNat + k < s.inLen.toNat) : s.peek k = s'.peek k := by
  rw [State.peek, State.peek, ← h.inPos, h.input _ hk]

theorem emit_obufAt (s : State) (v : Byte) (a : Nat) :
    (s.emit v).obufAt a = if a = s.dp.outPos.toNat then v else s.obufAt a := by
  by_cases ha : a = s.dp.outPos.toNat
  · simp [State.obufAt, ha]
  · simp [State.obufAt, Memory.read_write_other _ _ ha, ha]

theorem SameRun.emit {s s' : State} (h : SameRun s s') (v : Byte) : SameRun (s.emit v) (s'.emit v) where
  cleared := h.cleared
  cleared' := h.cleared'
  inLen := h.inLen
  ibufSz := h.ibufSz
  obufSz := h.obufSz
  input := h.input
  inPos := h.inPos
  outPos := congrArg (· + 1) h.outPos
  output k hk := by
    rw [emit_obufAt, emit_obufAt, ← h.outPos]
    split
    · rfl
    · have hk' : k < (s.dp.outPos + 1).toNat := hk
      exact h.output k (by bv_omega)

theorem SameRun.emitAll {s s' : State} (h : SameRun s s') (group : List Byte) :
    SameRun (s.emitAll group) (s'.emitAll group) := by
  induction group generalizing s s' with
  | nil => exact h
  | cons v rest ih => exact ih (h.emit v)

/-- Both runs have room for the group, or neither has. -/
theorem SameRun.emitGroup {s s' : State} (h : SameRun s s') (group : List Byte) :
    ResRel SameRun (s.emitGroup group) (s'.emitGroup group) := by
  unfold State.emitGroup
  rw [← h.outPos, ← h.obufSz]
  split
  · exact .ok (h.emitAll group)
  · exact .err _

/-! The passes of the triplet codec (42_triplet.md R122, R134). -/

/-- A pass that, run twice with input left, goes the same way. -/
def PassAgrees (group : State → Res State) : Prop :=
  ∀ s s', SameRun s s' → s.dp.inPos.toNat < s.inLen.toNat → ResRel SameRun (group s) (group s')

theorem enc45Pass_agrees : PassAgrees enc45Pass := by
  intro s s' h hleft
  have hfirst : s.peek 0 = s'.peek 0 := h.peek hleft
  unfold enc45Pass
  rw [← h.remaining]
  split
  case isTrue htwo =>
    have hsecond : s.peek 1 = s'.peek 1 := h.peek (by unfold State.remaining at htwo; omega)
    unfold enc45Pair
    rw [← hfirst, ← hsecond]
    exact .bind_same fun out _ => ((h.loadAcc _).consume 2).emitGroup out
  case isFalse =>
    unfold enc45Single
    rw [← hfirst]
    exact .bind_same fun out _ => ((h.loadAcc _).consume 1).emitGroup out

/-- R134, R135: the triplet's value is loaded into ACC unless it overflows. -/
theorem loadTriplet_eq (c d e : Nat) (s : State) :
    loadTriplet c d e s =
      if Config.tripletMax < (BitVec.ofNat 64 c + 45 * BitVec.ofNat 64 d + 2025 * BitVec.ofNat 64 e).toNat then
        .err .accumulatorOverflow
      else .ok (s.loadAcc (BitVec.ofNat 64 c + 45 * BitVec.ofNat 64 d + 2025 * BitVec.ofNat 64 e)) := rfl

/-- The triplet's value overflows in both runs or is in both accumulators. -/
theorem SameRun.loadTriplet {s s' : State} (h : SameRun s s') (c d e : Nat) :
    ResRel (fun t t' => SameRun t t' ∧ t.dp.acc = t'.dp.acc) (loadTriplet c d e s) (loadTriplet c d e s') := by
  rw [loadTriplet_eq, loadTriplet_eq]
  split
  · exact .err _
  · exact .ok ⟨h.loadAcc _, rfl⟩

theorem dec45Pass_agrees : PassAgrees dec45Pass := by
  intro s s' h hleft
  have hfirst : s.peek 0 = s'.peek 0 := h.peek hleft
  unfold dec45Pass
  rw [← h.remaining]
  split
  · exact .err _
  case isFalse hone =>
    have hsecond : s.peek 1 = s'.peek 1 := h.peek (by unfold State.remaining at hone; omega)
    split
    case isTrue hthree =>
      have hthird : s.peek 2 = s'.peek 2 := h.peek (by unfold State.remaining at hthree; omega)
      unfold dec45Triplet
      rw [← hfirst, ← hsecond, ← hthird]
      refine .bind_same fun c _ => .bind_same fun d _ => .bind_same fun e _ => (h.loadTriplet c d e).bind ?_
      rintro t t' ⟨ht, hacc⟩
      rw [← hacc]
      exact (ht.consume 3).emitGroup _
    case isFalse =>
      unfold dec45Pair
      rw [← hfirst, ← hsecond]
      refine .bind_same fun c _ => .bind_same fun d _ => (h.loadTriplet c d 0).bind ?_
      rintro t t' ⟨ht, hacc⟩
      rw [← hacc]
      exact (ht.consume 2).emitGroup _

/-! The passes of the chunked codec (43_chunked.md R162, R174). -/

/-- Two runs inside a chunk of which `n` bytes are still to be read. Entries of LIFO that this chunk has not
pushed are left over from earlier ones, and may differ. -/
structure SameChunk (n : Nat) (s s' : State) : Prop extends SameRun s s' where
  unread : s.dp.inPos.toNat + n ≤ s.inLen.toNat
  acc : s.dp.acc = s'.dp.acc
  nb : s.dp.nb = s'.dp.nb
  nd : s.dp.nd = s'.dp.nd
  lifoDepth : s.dp.lifoDepth = s'.dp.lifoDepth
  lifo : ∀ i, i < s.dp.lifoDepth.toNat → s.lifoEntry i = s'.lifoEntry i

/-- At a chunk's start LIFO is empty. -/
theorem SameRun.clearChunk {s s' : State} (h : SameRun s s') {n : Nat}
    (hn : s.dp.inPos.toNat + n ≤ s.inLen.toNat) : SameChunk n s.clearChunk s'.clearChunk where
  toSameRun := h.withDp h.inPos rfl rfl
  unread := hn
  acc := rfl
  nb := rfl
  nd := rfl
  lifoDepth := rfl
  lifo i hi := absurd hi (Nat.not_lt_zero i)

theorem SameChunk.foldByte {n : Nat} {s s' : State} (h : SameChunk (n + 1) s s') :
    SameChunk n s.foldByte s'.foldByte where
  toSameRun := h.toSameRun.withDp (congrArg (· + 1) h.inPos) rfl rfl
  unread := by
    have := h.unread
    simp only [State.foldByte_dp, State.foldByte_inLen]
    bv_omega
  acc := by
    have hbyte : s.peek 0 = s'.peek 0 := h.peek (by have := h.unread; omega)
    simp only [State.foldByte_dp, h.acc, hbyte]
  nb := congrArg (· + 1) h.nb
  nd := h.nd
  lifoDepth := h.lifoDepth
  lifo := h.lifo

theorem SameChunk.foldBytes {n : Nat} {s s' : State} (h : SameChunk n s s') :
    SameChunk 0 (State.foldBytes n s) (State.foldBytes n s') := by
  induction n generalizing s s' with
  | zero => exact h
  | succ n ih => exact ih h.foldByte

theorem SameChunk.foldChar {n : Nat} {s s' : State} (h : SameChunk (n + 1) s s') :
    ResRel (SameChunk n) s.foldChar s'.foldChar := by
  have hunread := h.unread
  have hbyte : s.peek 0 = s'.peek 0 := h.peek (by omega)
  unfold State.foldChar
  rw [← hbyte, ← h.acc, ← h.nd]
  refine .bind_same fun d _ => .ok ?_
  exact {
    toSameRun := h.toSameRun.withDp (congrArg (· + 1) h.inPos) rfl rfl
    unread := by
      simp only [State.consume_dp, State.consume_inLen]
      bv_omega
    acc := rfl
    nb := h.nb
    nd := rfl
    lifoDepth := h.lifoDepth
    lifo := h.lifo }

theorem SameChunk.foldChars {n : Nat} {s s' : State} (h : SameChunk n s s') :
    ResRel (SameChunk 0) (State.foldChars n s) (State.foldChars n s') := by
  induction n generalizing s s' with
  | zero => exact .ok h
  | succ n ih => exact h.foldChar.bind fun _ _ ht => ih ht

/-- ENCQR's pass once the bytes are read, when ND counts the digits pushed on DIGBUF: what lies above them is left
over, and may differ. -/
structure SameDigits (s s' : State) : Prop extends SameChunk 0 s s' where
  digits : ∀ i, i < s.dp.nd.toNat → s.digit i = s'.digit i

/-- What a register of several entries holds after a push: an entry past its end takes nothing and reads 0. -/
theorem getD_setIfInBounds {α : Type} {n : Nat} (v : Vector α n) (d : Nat) (x z : α) (i : Nat) :
    (v.setIfInBounds d x).toList.getD i z = if i = d then if i < n then x else z else v.toList.getD i z := by
  rw [Vector.toList_setIfInBounds, List.getD_eq_getElem?_getD, List.getElem?_set, List.getD_eq_getElem?_getD,
    Vector.length_toList]
  by_cases hd : d = i
  · rw [if_pos hd, if_pos hd.symm, hd]
    split <;> rfl
  · rw [if_neg hd, if_neg (Ne.symm hd)]

theorem pushDigit_digit (s : State) (i : Nat) :
    s.pushDigit.digit i =
      if i = s.dp.nd.toNat then (if i < 11 then (s.dp.acc % 45).setWidth 6 else 0 : BitVec 6).toNat
      else s.digit i := by
  rw [State.digit, State.pushDigit_dp, getD_setIfInBounds, State.digit, apply_ite BitVec.toNat]

theorem SameDigits.pushDigit {s s' : State} (h : SameDigits s s') : SameDigits s.pushDigit s'.pushDigit where
  toSameRun := h.toSameRun.withDp h.inPos rfl rfl
  unread := h.unread
  acc := congrArg (· / 45) h.acc
  nb := h.nb
  nd := congrArg (· + 1) h.nd
  lifoDepth := h.lifoDepth
  lifo := h.lifo
  digits i hi := by
    rw [pushDigit_digit, pushDigit_digit, ← h.nd, ← h.acc]
    have hi' : i < (s.dp.nd + 1).toNat := hi
    split
    · rfl
    · exact h.digits i (by bv_omega)

theorem SameDigits.pushDigits (k : Nat) {s s' : State} (h : SameDigits s s') :
    SameDigits (State.pushDigits k s) (State.pushDigits k s') := by
  induction k generalizing s s' with
  | zero => exact h
  | succ k ih => exact ih h.pushDigit

theorem foldBytes_nd (n : Nat) (s : State) : (State.foldBytes n s).dp.nd = s.dp.nd := by
  induction n generalizing s with
  | zero => rfl
  | succ n ih => exact ih s.foldByte

/-- Reading the bytes of a chunk pushes no digit. -/
theorem SameRun.readBytes {s s' : State} (h : SameRun s s') {n : Nat}
    (hn : s.dp.inPos.toNat + n ≤ s.inLen.toNat) :
    SameDigits (State.foldBytes n s.clearChunk) (State.foldBytes n s'.clearChunk) where
  toSameChunk := (h.clearChunk hn).foldBytes
  digits i hi := by simp [foldBytes_nd] at hi

theorem pushDigits_nd (k : Nat) (s : State) : (State.pushDigits k s).dp.nd = s.dp.nd + BitVec.ofNat 4 k := by
  induction k generalizing s with
  | zero => simp [State.pushDigits]
  | succ k ih =>
    rw [State.pushDigits, ih, State.pushDigit_dp]
    bv_omega

theorem SameDigits.digitsDown {s s' : State} (h : SameDigits s s') {k : Nat} (hk : k ≤ s.dp.nd.toNat) :
    s.digitsDown k = s'.digitsDown k := by
  induction k with
  | zero => rfl
  | succ k ih => rw [State.digitsDown, State.digitsDown, h.digits k hk, ih (by omega)]

/-- B2D's answers fit in DIGBUF. -/
theorem le_of_b2d {n k : Nat} (h : b2d n = .ok k) : k ≤ 11 := by
  have hrom : ∀ m ≤ Config.chunkBytes, b2dRom.getD m 0 ≤ 11 := by decide
  unfold b2d at h
  split at h
  · cases h
  · cases h
    exact hrom n (by omega)

/-- The digits of a chunk fit in ND, whose count covers all of them. -/
theorem le_pushDigits_nd {n k : Nat} (h : b2d n = .ok k) {s : State} (hnd : s.dp.nd = 0) :
    k ≤ (State.pushDigits k s).dp.nd.toNat := by
  have := le_of_b2d h
  rw [pushDigits_nd, hnd]
  bv_omega

theorem encqrPass_agrees : PassAgrees encqrPass := by
  intro s s' h hleft
  unfold encqrPass
  dsimp only
  rw [← h.remaining]
  have hread := h.readBytes (n := min Config.chunkBytes s.remaining) (by unfold State.remaining; omega)
  rw [← hread.nb]
  refine .bind_same fun k hk => ?_
  have hpushed := hread.pushDigits k
  rw [← hpushed.digitsDown (le_pushDigits_nd hk (foldBytes_nd _ _))]
  exact .bind_same fun out _ => hpushed.emitGroup out

theorem pushByte_lifoEntry (s : State) (i : Nat) :
    s.pushByte.lifoEntry i =
      if i = s.dp.lifoDepth.toNat then if i < 7 then s.dp.acc.setWidth 8 else 0 else s.lifoEntry i := by
  rw [State.lifoEntry, State.pushByte_dp, getD_setIfInBounds, State.lifoEntry]

theorem SameChunk.pushByte {n : Nat} {s s' : State} (h : SameChunk n s s') :
    SameChunk n s.pushByte s'.pushByte where
  toSameRun := h.toSameRun.withDp h.inPos rfl rfl
  unread := h.unread
  acc := congrArg (fun v : Acc => v >>> 8) h.acc
  nb := h.nb
  nd := h.nd
  lifoDepth := congrArg (· + 1) h.lifoDepth
  lifo i hi := by
    rw [pushByte_lifoEntry, pushByte_lifoEntry, ← h.lifoDepth, ← h.acc]
    have hi' : i < (s.dp.lifoDepth + 1).toNat := hi
    split
    · rfl
    · exact h.lifo i (by bv_omega)

theorem SameChunk.pushBytes {n : Nat} (k : Nat) {s s' : State} (h : SameChunk n s s') :
    SameChunk n (State.pushBytes k s) (State.pushBytes k s') := by
  induction k generalizing s s' with
  | zero => exact h
  | succ k ih => exact ih h.pushByte

theorem SameChunk.lifoDown {n : Nat} {s s' : State} (h : SameChunk n s s') {k : Nat}
    (hk : k ≤ s.dp.lifoDepth.toNat) : s.lifoDown k = s'.lifoDown k := by
  induction k with
  | zero => rfl
  | succ k ih => rw [State.lifoDown, State.lifoDown, h.lifo k hk, ih (by omega)]

theorem SameChunk.loadNb {n : Nat} {s s' : State} (h : SameChunk n s s') (k : Nat) :
    SameChunk n (s.loadNb k) (s'.loadNb k) where
  toSameRun := h.toSameRun.withDp h.inPos rfl rfl
  unread := h.unread
  acc := h.acc
  nb := rfl
  nd := h.nd
  lifoDepth := h.lifoDepth
  lifo := h.lifo

theorem SameChunk.emptyLifo {n : Nat} {s s' : State} (h : SameChunk n s s') : SameRun s.emptyLifo s'.emptyLifo :=
  h.toSameRun.withDp h.inPos rfl rfl

theorem decqrPass_agrees : PassAgrees decqrPass := by
  intro s s' h hleft
  unfold decqrPass
  dsimp only
  rw [← h.remaining]
  have hstart := h.clearChunk (n := min Config.chunkDigits s.remaining) (by unfold State.remaining; omega)
  refine hstart.foldChars.bind fun u u' hu => ?_
  rw [← hu.nd]
  refine .bind_same fun n _ => ?_
  have hpushed := (hu.loadNb n).pushBytes (BitVec.ofNat 3 n).toNat
  simp only [State.loadNb_dp]
  rw [← hpushed.lifoDepth, ← hpushed.lifoDown (Nat.le_refl _)]
  exact hpushed.emptyLifo.emitGroup _

/-! The end of a command (40_control.md R94, R98; 60_exceptions.md R196). -/

theorem groupLoop_agrees {group : State → Res State} (hgroup : PassAgrees group) (bound : Nat) {s s' : State}
    (h : SameRun s s') : ResRel SameRun (groupLoop group bound s) (groupLoop group bound s') := by
  induction bound generalizing s s' with
  | zero => exact .ok h
  | succ n ih =>
    unfold groupLoop
    rw [← h.inPos, ← h.inLen]
    split
    case isTrue hleft => exact (hgroup s s' h hleft).bind fun _ _ ht => ih ht
    case isFalse => exact .ok h

/-- What the host sees of a command's outcome (R97). -/
def SameOutcome (t t' : State) : Prop :=
  t.status.done = t'.status.done ∧ t.status.err = t'.status.err ∧ t.status.errcode = t'.status.errcode ∧
    t.outLen = t'.outLen ∧ t.result = t'.result ∧ ∀ k, k < t.outLen.toNat → t.obufAt k = t'.obufAt k

/-- Two steps of the engine with the same outcome. -/
def SameEnd (r r' : Host.Outcome State Fault Refusal) : Prop :=
  ∀ t t', r = .next t → r' = .next t' → SameOutcome t t'

theorem sameEnd_next {t t' : State} (h : SameOutcome t t') : SameEnd (.next t) (.next t') := by
  rintro _ _ ⟨⟩ ⟨⟩
  exact h

/-- An error's outcome is its code (R196). -/
theorem raise_sameOutcome (k : ErrKind) (s s' : State) : SameOutcome (s.raise k) (s'.raise k) :=
  ⟨rfl, rfl, rfl, rfl, rfl, fun i hi => absurd hi (Nat.not_lt_zero i)⟩

/-- A completion's outcome is in the registers that it finds, and in OBUF (R94). -/
theorem complete_sameOutcome {s s' : State} (herr : s.status.err = s'.status.err)
    (hcode : s.status.errcode = s'.status.errcode) (hlen : s.outLen = s'.outLen) (hresult : s.result = s'.result)
    (hobuf : ∀ k, k < s.outLen.toNat → s.obufAt k = s'.obufAt k) : SameOutcome s.complete s'.complete :=
  ⟨rfl, herr, hcode, hlen, hresult, hobuf⟩

theorem execNop_sameEnd {s s' : State} (h : Cleared s) (h' : Cleared s') : SameEnd (execNop s) (execNop s') := by
  obtain ⟨herr, hcode, hlen, hresult⟩ := h
  obtain ⟨herr', hcode', hlen', hresult'⟩ := h'
  refine sameEnd_next (complete_sameOutcome (herr.trans herr'.symm) (hcode.trans hcode'.symm)
    (hlen.trans hlen'.symm) (hresult.trans hresult'.symm) fun k hk => ?_)
  simp [hlen] at hk

theorem lookup_sameEnd (answer : Res Byte) {s s' : State} (h : Cleared s) (h' : Cleared s') :
    SameEnd (lookup answer s) (lookup answer s') := by
  obtain ⟨herr, hcode, hlen, hresult⟩ := h
  obtain ⟨herr', hcode', hlen', hresult'⟩ := h'
  cases answer with
  | ok v =>
    refine sameEnd_next (complete_sameOutcome (herr.trans herr'.symm) (hcode.trans hcode'.symm)
      (hlen.trans hlen'.symm) rfl fun k hk => ?_)
    simp [hlen] at hk
  | err k => exact sameEnd_next (raise_sameOutcome k s s')

theorem SameRun.completeBuffer {s s' : State} (h : SameRun s s') :
    SameOutcome s.completeBuffer s'.completeBuffer := by
  obtain ⟨herr, hcode, -, hresult⟩ := h.cleared
  obtain ⟨herr', hcode', -, hresult'⟩ := h.cleared'
  refine complete_sameOutcome (herr.trans herr'.symm) (hcode.trans hcode'.symm)
    (congrArg (BitVec.setWidth 32) h.outPos) (hresult.trans hresult'.symm) fun k hk => ?_
  have hk' : k < (s.dp.outPos.setWidth 32).toNat := hk
  exact h.output k (by bv_omega)

theorem runBuffer_sameEnd {group : State → Res State} (hgroup : PassAgrees group) {s s' : State}
    (h : SameRun s s') : SameEnd (runBuffer group s) (runBuffer group s') := by
  have hloop := groupLoop_agrees hgroup s.inLen.toNat h
  unfold runBuffer
  rw [← h.ibufSz, ← h.inLen]
  split
  · exact sameEnd_next (raise_sameOutcome _ s.forgetObuf s'.forgetObuf)
  · generalize groupLoop group s.inLen.toNat s = r, groupLoop group s.inLen.toNat s' = r' at hloop ⊢
    cases hloop with
    | ok ht => exact sameEnd_next ht.completeBuffer
    | err k => exact sameEnd_next (raise_sameOutcome k s.forgetObuf s'.forgetObuf)

/-- A buffer command's outcome needs a common input, the others need only their operand. -/
theorem exec_sameEnd (i : Instr) {s s' : State} (h : Cleared s) (h' : Cleared s')
    (hrun : i.commandClass = .buffer → SameRun s s') : SameEnd (exec i s) (exec i s') := by
  cases i with
  | nop => exact execNop_sameEnd h h'
  | enc45 => exact runBuffer_sameEnd enc45Pass_agrees (hrun rfl)
  | dec45 => exact runBuffer_sameEnd dec45Pass_agrees (hrun rfl)
  | encqr => exact runBuffer_sameEnd encqrPass_agrees (hrun rfl)
  | decqr => exact runBuffer_sameEnd decqrPass_agrees (hrun rfl)
  | d2c imm => exact lookup_sameEnd (d2c imm) h h'
  | c2d imm => exact lookup_sameEnd (answerByte (c2d imm)) h h'
  | b2d imm => exact lookup_sameEnd (answerByte (b2d imm)) h h'
  | d2b imm => exact lookup_sameEnd (answerByte (d2b imm)) h h'

/-- Two accepted commands with the same input begin equally far. -/
theorem sameRun_of_accepted {s s' : State} (h : Accepted s) (h' : Accepted s') (hlen : s.inLen = s'.inLen)
    (hibufSz : s.ibufSz = s'.ibufSz) (hobufSz : s.obufSz = s'.obufSz)
    (hinput : ∀ k, k < s.inLen.toNat → s.ibufAt k = s'.ibufAt k) : SameRun s s' := by
  obtain ⟨-, hin, hout⟩ := h.1.busy_fetch h.2
  obtain ⟨-, hin', hout'⟩ := h'.1.busy_fetch h'.2
  exact {
    cleared := cleared_of_accepted h
    cleared' := cleared_of_accepted h'
    inLen := hlen
    ibufSz := hibufSz
    obufSz := hobufSz
    input := hinput
    inPos := hin.trans hin'.symm
    outPos := hout.trans hout'.symm
    output := fun k hk => by simp [hout] at hk }

/-- Settles O49, by running the two states side by side: a pass reads nothing that it has not set but the input
bytes at IN_POS and the room left at OUT_POS, so the groups stay equal to the end. -/
theorem outcomeDependsOnInputOnly : Obligations.OutcomeDependsOnInputOnly := by
  intro s s' t t' hs hs' hcur hinput ht ht'
  have hend : SameEnd (engineStep s) (engineStep s') := by
    unfold engineStep
    rw [← hcur]
    cases hd : decode s.dp.cur with
    | legal i =>
      refine exec_sameEnd i (cleared_of_accepted hs) (cleared_of_accepted hs') fun hbuffer => ?_
      obtain ⟨hlen, hibufSz, hobufSz, hbytes⟩ := hinput i hd hbuffer
      exact sameRun_of_accepted hs hs' hlen hibufSz hobufSz hbytes
    | illegal y => exact sameEnd_next (raise_sameOutcome _ s s')
  exact hend t t' ht ht'

end Sys2Proof.Proofs
end

section
/-! SUPPORT. The proofs about the alphabet lookups (41_alphabet.md): D2C and C2D each answer exactly what ALPHA
holds. -/
namespace Sys2Proof.Proofs

open Sys2Proof.Machine Sys2Proof.Claims

/-- R41, R42: REV holds each digit value at the character that ALPHA holds for it; with `alphaRom_of_revRom`, the two
ROMs are inverse. -/
theorem revRom_of_alphaRom {d : Nat} {x : Byte} (h : alphaRom[d]? = some x) :
    revRom.getD x.toNat none = some d := by
  have hrom : ∀ i : Fin alphaRom.length, revRom.getD alphaRom[i].toNat none = some i.val := by decide
  obtain ⟨hd, rfl⟩ := List.getElem?_eq_some_iff.1 h
  exact hrom ⟨d, hd⟩

/-- R100: D2C answers exactly ALPHA's entries; past the table it raises. -/
theorem d2c_eq_ok_iff {d : Nat} {c : Byte} : d2c d = .ok c ↔ alphaRom[d]? = some c := by
  unfold d2c
  split
  case isTrue hd =>
    have hnone : alphaRom[d]? = none := List.getElem?_eq_none hd
    simp [hnone]
  case isFalse hd =>
    have hlt : d < alphaRom.length := Nat.lt_of_not_le hd
    simp [hlt]

/-- R104: a character's digit value is its REV entry; the bounds check always passes on a byte. -/
theorem c2d_eq_ok_iff_revRom {x : Byte} {d : Nat} :
    c2d x.toNat = .ok d ↔ revRom.getD x.toNat none = some d := by
  have hbyte : ¬ 255 < x.toNat := Nat.not_lt.2 (Nat.le_of_lt_succ x.isLt)
  unfold c2d
  rw [if_neg hbyte]
  cases revRom.getD x.toNat none <;> simp

/-- R104: C2D answers a digit value exactly on the character that ALPHA holds for it. -/
theorem c2d_eq_ok_iff {x : Byte} {d : Nat} : c2d x.toNat = .ok d ↔ alphaRom[d]? = some x :=
  c2d_eq_ok_iff_revRom.trans ⟨alphaRom_of_revRom x d, revRom_of_alphaRom⟩

/-- R103: the two lookups are inverse. -/
theorem c2d_eq_ok_iff_d2c {x : Byte} {d : Nat} : c2d x.toNat = .ok d ↔ d2c d = .ok x :=
  c2d_eq_ok_iff.trans d2c_eq_ok_iff.symm

/-- D2C answers an alphabet character on every digit value. -/
theorem d2c_of_le {d : Nat} (hd : d ≤ 44) : ∃ c, d2c d = .ok c ∧ c ∈ alphaRom := by
  have hlt : d < alphaRom.length := Nat.lt_succ_of_le hd
  exact ⟨alphaRom[d], d2c_eq_ok_iff.2 (List.getElem?_eq_getElem hlt), List.getElem_mem hlt⟩

/-- D2C reaches every alphabet character. -/
theorem d2c_of_mem {x : Byte} (hx : x ∈ alphaRom) : ∃ d, d2c d = .ok x :=
  (List.mem_iff_getElem?.1 hx).imp fun _ hd => d2c_eq_ok_iff.2 hd

/-- Two digit values with one character are both its C2D. -/
theorem d2c_injective {d d' : Nat} {c : Byte} (h : d2c d = .ok c) (h' : d2c d' = .ok c) : d = d' :=
  Res.ok.inj ((c2d_eq_ok_iff_d2c.2 h).symm.trans (c2d_eq_ok_iff_d2c.2 h'))

/-- Settles O7: both lookups read the one relation that ALPHA is, from its two sides. -/
theorem alphabetLookupsAreInverse : Obligations.AlphabetLookupsAreInverse := by
  refine ⟨fun d hd => ?_, fun x hx => ?_, fun _ _ _ => d2c_injective⟩
  · obtain ⟨c, hc, hmem⟩ := d2c_of_le hd
    exact ⟨c, hc, hmem, c2d_eq_ok_iff_d2c.2 hc⟩
  · obtain ⟨d, hd⟩ := d2c_of_mem hx
    exact ⟨d, c2d_eq_ok_iff_d2c.2 hd, hd⟩

end Sys2Proof.Proofs
end

section
/-! SUPPORT. The proofs about the triplet codec (42_triplet.md): the conversion of a list in groups, the engine's
loop as that conversion, and the two codecs' groups. -/
namespace Sys2Proof.Proofs

open Sys2Proof.Machine Sys2Proof.Claims

/-! The pure conversions in groups (00_scope.md R12; 40_control.md R96). -/

@[simp] theorem fits_none (n : Nat) : fits none n = true := rfl

@[simp] theorem fits_some (cap n : Nat) : fits (some cap) n = true ↔ n ≤ cap := decide_eq_true_iff

theorem fits_of_le {cap : Option Nat} {m n : Nat} (hmn : m ≤ n) (hn : fits cap n = true) : fits cap m = true := by
  cases cap with
  | none => rfl
  | some c => exact (fits_some c m).2 (Nat.le_trans hmn ((fits_some c n).1 hn))

theorem fits_zero (cap : Option Nat) : fits cap 0 = true := by cases cap <;> simp

section
variable {cap : Option Nat} {out group : List Byte}

/-- R12: a group is appended whole where the capacity has room, else not at all. -/
theorem append_of_fits (h : fits cap (out ++ group).length = true) : append cap out group = .ok (out ++ group) := by
  rw [List.length_append] at h
  exact if_pos h

theorem append_of_not_fits (h : ¬fits cap (out ++ group).length = true) :
    append cap out group = .err .outputOverflow := by
  rw [List.length_append] at h
  exact if_neg h

theorem append_eq_ok {out' : List Byte} (h : append cap out group = .ok out') :
    fits cap (out ++ group).length = true ∧ out' = out ++ group := by
  by_cases hfits : fits cap (out ++ group).length = true
  · exact ⟨hfits, Res.ok.inj (h.symm.trans (append_of_fits hfits))⟩
  · cases h.symm.trans (append_of_not_fits hfits)

theorem append_eq_err {k : ErrKind} (h : append cap out group = .err k) : k = .outputOverflow := by
  by_cases hfits : fits cap (out ++ group).length = true
  · cases h.symm.trans (append_of_fits hfits)
  · exact Res.err.inj (h.symm.trans (append_of_not_fits hfits))

end

@[simp] theorem convert_nil (width : Nat) (group : List Byte → Res (List Byte)) (cap : Option Nat) (n : Nat)
    (out : List Byte) : convert width group cap n out [] = .ok out := by
  cases n <;> rfl

/-- A pass of the loop, while input is left. -/
theorem convert_succ {width : Nat} {group : List Byte → Res (List Byte)} {cap : Option Nat} {n : Nat}
    {out input : List Byte} (hne : input ≠ []) :
    convert width group cap (n + 1) out input =
      (group (input.take width)).bind fun g => (append cap out g).bind fun out' =>
        convert width group cap n out' (input.drop width) := by
  rw [convert, if_neg (by simpa using hne)]

/-- Group by group, every group of the input converts, and the output is theirs in order. -/
inductive Converts (width : Nat) (group : List Byte → Res (List Byte)) : List Byte → List Byte → Prop where
  | nil : Converts width group [] []
  | step {input g out : List Byte} (hne : input ≠ []) (hgroup : group (input.take width) = .ok g)
      (hrest : Converts width group (input.drop width) out) : Converts width group input (g ++ out)

section
variable {width : Nat} {group : List Byte → Res (List Byte)} {cap : Option Nat}

theorem converts_of_convert (n : Nat) {acc input out : List Byte} (hwidth : 0 < width)
    (hn : input.length ≤ n) (hacc : fits cap acc.length = true)
    (h : convert width group cap n acc input = .ok out) :
    ∃ o, Converts width group input o ∧ out = acc ++ o ∧ fits cap out.length = true := by
  induction n generalizing acc input with
  | zero =>
    obtain rfl : input = [] := List.eq_nil_of_length_eq_zero (Nat.le_zero.1 hn)
    cases h
    exact ⟨[], .nil, by simp, hacc⟩
  | succ n ih =>
    by_cases hne : input = []
    · subst hne
      cases h
      exact ⟨[], .nil, by simp, hacc⟩
    · rw [convert_succ hne] at h
      obtain ⟨g, hg, h⟩ := Res.bind_eq_ok.1 h
      obtain ⟨acc', hacc', h⟩ := Res.bind_eq_ok.1 h
      obtain ⟨hfits, rfl⟩ := append_eq_ok hacc'
      obtain ⟨o, ho, rfl, hout⟩ := ih (by rw [List.length_drop]; omega) hfits h
      exact ⟨g ++ o, .step hne hg ho, List.append_assoc _ _ _, hout⟩

theorem convert_of_converts {input o : List Byte} (h : Converts width group input o) (n : Nat) {acc : List Byte}
    (hwidth : 0 < width) (hn : input.length ≤ n) (hfits : fits cap (acc ++ o).length = true) :
    convert width group cap n acc input = .ok (acc ++ o) := by
  induction h generalizing n acc with
  | nil => simp
  | @step input g o hne hgroup _ ih =>
    have hlen := List.length_pos_iff.2 hne
    obtain ⟨n, rfl⟩ : ∃ m, n = m + 1 := ⟨n - 1, by omega⟩
    rw [← List.append_assoc] at hfits ⊢
    rw [convert_succ hne, hgroup, Res.bind_ok, append_of_fits (fits_of_le (by simp) hfits), Res.bind_ok]
    exact ih n (by rw [List.length_drop]; omega) hfits

/-- R96: a conversion succeeds where every group converts and the whole output fits. -/
theorem convertAll_eq_ok_iff {input out : List Byte} (hwidth : 0 < width) :
    convertAll width group input cap = .ok out ↔ Converts width group input out ∧ fits cap out.length = true := by
  constructor
  · intro h
    obtain ⟨o, ho, rfl, hfits⟩ := converts_of_convert input.length hwidth (Nat.le_refl _) (fits_zero cap) h
    exact ⟨ho, hfits⟩
  · rintro ⟨h, hfits⟩
    exact convert_of_converts h input.length (acc := []) hwidth (Nat.le_refl _) hfits

theorem convert_err (n : Nat) {acc input : List Byte} {k : ErrKind}
    (h : convert width group cap n acc input = .err k) : k = .outputOverflow ∨ ∃ g, group g = .err k := by
  induction n generalizing acc input with
  | zero => cases h
  | succ n ih =>
    by_cases hne : input = []
    · subst hne
      cases h
    · rw [convert_succ hne] at h
      rcases Res.bind_eq_err.1 h with hg | ⟨g, -, h⟩
      · exact .inr ⟨_, hg⟩
      · rcases Res.bind_eq_err.1 h with happend | ⟨acc', -, h⟩
        · exact .inl (append_eq_err happend)
        · exact ih h

/-- An error is the capacity's or a group's. -/
theorem convertAll_err {input : List Byte} {k : ErrKind} (h : convertAll width group input cap = .err k) :
    k = .outputOverflow ∨ ∃ g, group g = .err k :=
  convert_err input.length h

theorem Converts.single {g out : List Byte} (hne : g ≠ []) (hlen : g.length ≤ width) (hgroup : group g = .ok out) :
    Converts width group g out := by
  rw [← List.append_nil out]
  refine .step hne (by rwa [List.take_of_length_le hlen]) ?_
  rw [List.drop_of_length_le hlen]
  exact .nil

/-- An input of one group, alone in unbounded room. -/
theorem convertAll_single {g : List Byte} (hne : g ≠ []) (hlen : g.length ≤ width) :
    convertAll width group g none = group g := by
  obtain ⟨n, hn⟩ : ∃ n, g.length = n + 1 := ⟨g.length - 1, by have := List.length_pos_iff.2 hne; omega⟩
  rw [convertAll, hn, convert_succ hne, List.take_of_length_le hlen, List.drop_of_length_le hlen]
  cases group g <;> simp [append]

end

/-! The engine's loop as a pure conversion (40_control.md R91 to R94, R96, R98; 60_exceptions.md R196, R197). -/

/-- The input bytes from IN_POS on. -/
def unread (s : State) : List Byte := s.input.drop s.dp.inPos.toNat

@[simp] theorem input_length (s : State) : s.input.length = s.inLen.toNat := by simp [State.input]

theorem unread_length (s : State) : (unread s).length = s.remaining := by simp [unread, State.remaining]

/-- The bytes that a pass of this width has before it. -/
theorem unread_take (s : State) (width : Nat) :
    (unread s).take width = (List.range (min width s.remaining)).map s.peek := by
  refine List.ext_getElem (by simp [unread_length]) fun k hk hk' => ?_
  simp [unread, State.input, State.peek]

theorem unread_of_accepted {s : State} (h : Accepted s) : unread s = s.input := by
  obtain ⟨-, hin, -⟩ := h.1.busy_fetch h.2
  simp [unread, hin]

section
variable {s t : State} (h : EngineOnly s t)
include h

theorem engineOnly_inLen : t.inLen = s.inLen := by rw [h]

theorem engineOnly_ibufSz : t.ibufSz = s.ibufSz := by rw [h]

theorem engineOnly_obufSz : t.obufSz = s.obufSz := by rw [h]

theorem engineOnly_obufEpoch : t.obufEpoch = s.obufEpoch := by rw [h]

theorem engineOnly_input : t.input = s.input := by
  rw [h]
  rfl

theorem engineOnly_status : t.status = s.status := by rw [h]

theorem engineOnly_result : t.result = s.result := by rw [h]

theorem completeBuffer_keepsHostSide : KeepsHostSide s t.completeBuffer := by
  rw [h]
  exact ⟨rfl, rfl, rfl, rfl, fun _ => rfl, rfl, rfl, rfl, rfl⟩

end

theorem completeBuffer_obufAt (s : State) (a : Nat) : s.completeBuffer.obufAt a = s.obufAt a := rfl

theorem emitAll_inPos (group : List Byte) (s : State) : (s.emitAll group).dp.inPos = s.dp.inPos := by
  induction group generalizing s with
  | nil => rfl
  | cons v rest ih => exact ih (s.emit v)

/-- A run from `s` has reached `t`, and what it has emitted is this. -/
structure Emitted (s : State) (out : List Byte) (t : State) : Prop where
  engineOnly : EngineOnly s t
  outPos : t.dp.outPos.toNat = out.length
  obuf : ∀ a, t.obufAt a = out.getD a (s.obufAt a)

theorem emitted_of_accepted {s : State} (h : Accepted s) : Emitted s [] s := by
  obtain ⟨-, -, hout⟩ := h.1.busy_fetch h.2
  exact ⟨.refl s, by simp [hout], fun _ => rfl⟩

theorem Emitted.emit {s t : State} {out : List Byte} (h : Emitted s out t) (v : Byte)
    (hroom : out.length < s.obufSz.bytes) : Emitted s (out ++ [v]) (t.emit v) := by
  have hout := h.outPos
  refine ⟨h.engineOnly.trans (emit_engineOnly v t), ?_, fun a => ?_⟩
  · obtain ⟨-, hsize, -⟩ := bytes_bounds s.obufSz
    rw [State.emit_dp, List.length_append, List.length_singleton]
    bv_omega
  · rw [emit_obufAt, h.obuf, hout]
    grind

theorem Emitted.emitAll {s t : State} {out group : List Byte} (h : Emitted s out t)
    (hroom : out.length + group.length ≤ s.obufSz.bytes) : Emitted s (out ++ group) (t.emitAll group) := by
  induction group generalizing out t with
  | nil =>
    rw [List.append_nil]
    exact h
  | cons v rest ih =>
    rw [List.length_cons] at hroom
    rw [List.append_cons]
    exact ih (h.emit v (by omega)) (by rw [List.length_append, List.length_singleton]; omega)

/-- A pass has consumed a group of this width, or what is left of the input, and has emitted nothing yet. -/
structure Consumed (width : Nat) (t u : State) : Prop where
  engineOnly : EngineOnly t u
  obuf : u.obuf = t.obuf
  inPos : u.dp.inPos.toNat = min (t.dp.inPos.toNat + width) t.inLen.toNat
  outPos : u.dp.outPos = t.dp.outPos

theorem Emitted.consumed {s t u : State} {out : List Byte} {width : Nat} (h : Emitted s out t)
    (hu : Consumed width t u) : Emitted s out u where
  engineOnly := h.engineOnly.trans hu.engineOnly
  outPos := (congrArg BitVec.toNat hu.outPos).trans h.outPos
  obuf a := by
    rw [← h.obuf a, State.obufAt, State.obufAt, hu.obuf, engineOnly_obufEpoch hu.engineOnly]

/-- The bytes that the passes after this one have before them. -/
theorem Consumed.unread_emitAll {t u : State} {width : Nat} (hu : Consumed width t u) (group : List Byte) :
    unread (u.emitAll group) = (unread t).drop width := by
  have hinput : (u.emitAll group).input = t.input :=
    engineOnly_input (hu.engineOnly.trans (emitAll_engineOnly group u))
  rw [unread, unread, hinput, emitAll_inPos, hu.inPos, List.drop_drop]
  rcases Nat.le_total (t.dp.inPos.toNat + width) t.inLen.toNat with hle | hle
  · rw [Nat.min_eq_left hle]
  · rw [Nat.min_eq_right hle, List.drop_of_length_le (by simp), List.drop_of_length_le (by simpa using hle)]

/-- What a pass of this width does from `t`, where its group converts to an answer: it consumes the group and emits
its output, or raises the group's error. -/
inductive PassRuns (width : Nat) (t : State) : Res (List Byte) → Res State → Prop where
  | ok {g : List Byte} {u : State} (hu : Consumed width t u) : PassRuns width t (.ok g) (u.emitGroup g)
  | err (k : ErrKind) : PassRuns width t (.err k) (.err k)

/-- The pass emits its group's answer. -/
theorem PassRuns.emit {width : Nat} {t u : State} {answer : Res (List Byte)} (hu : Consumed width t u) :
    PassRuns width t answer (answer.bind u.emitGroup) := by
  cases answer with
  | ok g => exact .ok hu
  | err k => exact .err k

/-- The group and the pass begin with the same computation. -/
theorem PassRuns.bind_same {width : Nat} {t : State} {α : Type} {r : Res α} {f : α → Res (List Byte)}
    {f' : α → Res State} (hf : ∀ x, r = .ok x → PassRuns width t (f x) (f' x)) :
    PassRuns width t (r.bind f) (r.bind f') := by
  cases r with
  | ok x => exact hf x rfl
  | err k => exact .err k

/-- A buffer command is a loop of passes, and a pass with input left converts the bytes before it as `group`
does. -/
def RunsGroups (i : Instr) (width : Nat) (group : List Byte → Res (List Byte)) : Prop :=
  ∃ pass, (∀ s, exec i s = runBuffer pass s) ∧
    ∀ t, t.dp.inPos.toNat < t.inLen.toNat → t.inLen.toNat ≤ t.ibufSz.bytes →
      PassRuns width t (group ((unread t).take width)) (pass t)

/-- The engine's loop and the pure one both end with the same error, or both with the same output. -/
inductive LoopRuns (s : State) : Res (List Byte) → Res State → Prop where
  | ok {out : List Byte} {t : State} (h : Emitted s out t) : LoopRuns s (.ok out) (.ok t)
  | err (k : ErrKind) : LoopRuns s (.err k) (.err k)

section
variable {i : Instr} {width : Nat} {group : List Byte → Res (List Byte)}

theorem groupLoop_loopRuns {pass : State → Res State} {s : State} (hfit : s.inLen.toNat ≤ s.ibufSz.bytes)
    (hpass : ∀ t, t.dp.inPos.toNat < t.inLen.toNat → t.inLen.toNat ≤ t.ibufSz.bytes →
      PassRuns width t (group ((unread t).take width)) (pass t)) (n : Nat) {t : State} {out : List Byte}
    (h : Emitted s out t) :
    LoopRuns s (convert width group (some s.obufSz.bytes) n out (unread t)) (groupLoop pass n t) := by
  induction n generalizing t out with
  | zero => exact .ok h
  | succ n ih =>
    have hlen := unread_length t
    rw [State.remaining] at hlen
    unfold groupLoop
    split
    case isFalse hend =>
      rw [List.eq_nil_of_length_eq_zero (l := unread t) (by omega), convert_nil]
      exact .ok h
    case isTrue hleft =>
      have hrun := hpass t hleft (by rw [engineOnly_inLen h.engineOnly, engineOnly_ibufSz h.engineOnly]; exact hfit)
      rw [convert_succ (List.length_pos_iff.1 (by omega))]
      generalize group ((unread t).take width) = answer, pass t = r at hrun
      cases hrun with
      | err k => exact .err k
      | @ok g u hu =>
        have hmoved := h.consumed hu
        have hlength : (out ++ g).length = u.dp.outPos.toNat + g.length := by rw [hmoved.outPos, List.length_append]
        rw [Res.bind_ok]
        rcases emitGroup_cases (s := u) (group := g) rfl with ⟨hroom, hemit⟩ | ⟨hfull, hemit⟩
        · rw [engineOnly_obufSz hmoved.engineOnly, ← hlength] at hroom
          rw [append_of_fits ((fits_some _ _).2 hroom), hemit, Res.bind_ok, Res.bind_ok, ← hu.unread_emitAll g]
          exact ih (hmoved.emitAll (by rwa [← List.length_append]))
        · rw [engineOnly_obufSz hmoved.engineOnly, ← hlength] at hfull
          rw [append_of_not_fits fun hfits => Nat.not_lt.2 ((fits_some _ _).1 hfits) hfull, hemit]
          exact .err _

/-! The end of a buffer command. -/

section
variable {pass : State → Res State} {s : State}

/-- R91: the range check comes first. -/
theorem runBuffer_of_long (hlong : s.ibufSz.bytes < s.inLen.toNat) :
    runBuffer pass s = .next (s.raiseBuffer .inputLengthRange) :=
  if_pos hlong

theorem runBuffer_of_ok {t : State} (hfit : s.inLen.toNat ≤ s.ibufSz.bytes)
    (h : groupLoop pass s.inLen.toNat s = .ok t) : runBuffer pass s = .next t.completeBuffer := by
  rw [runBuffer, if_neg (Nat.not_lt.2 hfit), h]

theorem runBuffer_of_err {k : ErrKind} (hfit : s.inLen.toNat ≤ s.ibufSz.bytes)
    (h : groupLoop pass s.inLen.toNat s = .err k) : runBuffer pass s = .next (s.raiseBuffer k) := by
  rw [runBuffer, if_neg (Nat.not_lt.2 hfit), h]

end

/-- R196, R197: an error of a buffer command leaves what `raiseBuffer` leaves. -/
theorem failsWith_of_exec {s : State} {k : ErrKind} (h : exec i s = .next (s.raiseBuffer k)) :
    FailsWith i k.code s :=
  ⟨_, h, ⟨rfl, rfl, rfl⟩, fun _ => rfl, ⟨rfl, rfl, rfl, rfl, fun _ => rfl, rfl, rfl, rfl, rfl⟩⟩

theorem done_of_failsWith {s t : State} {code : BitVec 4} (hfail : FailsWith i code s) (hexec : exec i s = .next t) :
    t.status.done = false := by
  obtain ⟨t', hexec', ⟨hstatus, -⟩, -⟩ := hfail
  obtain rfl : t = t' := Host.Outcome.next.inj (hexec.symm.trans hexec')
  exact congrArg Status.done hstatus

/-- R94: a buffer command that has emitted this output completes with it. -/
theorem succeedsWith_of_exec {s t : State} {out : List Byte} (hs : Accepted s) (ht : Emitted s out t)
    (h : exec i s = .next t.completeBuffer) : SucceedsWith i out s := by
  obtain ⟨herr, hcode, -, hresult⟩ := cleared_of_accepted hs
  have hstatus := engineOnly_status ht.engineOnly
  refine ⟨_, h, congrArg Status.completed hstatus, (congrArg Status.err hstatus).trans herr,
    (congrArg Status.errcode hstatus).trans hcode, ⟨?_, fun a ha => ?_, fun a ha => ?_⟩,
    (engineOnly_result ht.engineOnly).trans hresult, completeBuffer_keepsHostSide ht.engineOnly⟩
  · rw [State.completeBuffer_outLen, BitVec.toNat_setWidth_of_le (by decide), ht.outPos]
  · rw [completeBuffer_obufAt, ht.obuf, List.getD_eq_getElem?_getD, List.getElem?_eq_getElem ha,
      Option.getD_some]
  · rw [completeBuffer_obufAt, ht.obuf, List.getD_eq_getElem?_getD, List.getElem?_eq_none ha,
      Option.getD_none]

theorem RunsGroups.failsWith_range (hi : RunsGroups i width group) {s : State}
    (hlong : s.ibufSz.bytes < s.inLen.toNat) : FailsWith i 7 s := by
  obtain ⟨pass, hexec, -⟩ := hi
  exact failsWith_of_exec (k := .inputLengthRange) ((hexec s).trans (runBuffer_of_long hlong))

/-- R96: the loop on the engine meets the pure conversion of the input. -/
theorem RunsGroups.loopRuns (hi : RunsGroups i width group) {s : State} (hs : Accepted s)
    (hfit : s.inLen.toNat ≤ s.ibufSz.bytes) :
    ∃ pass, exec i s = runBuffer pass s ∧
      LoopRuns s (convertAll width group s.input (some s.obufSz.bytes)) (groupLoop pass s.inLen.toNat s) := by
  obtain ⟨pass, hexec, hpass⟩ := hi
  have hloop := groupLoop_loopRuns hfit hpass s.inLen.toNat (emitted_of_accepted hs)
  rw [unread_of_accepted hs] at hloop
  exact ⟨pass, hexec s, by rwa [convertAll, input_length]⟩

theorem RunsGroups.succeedsWith (hi : RunsGroups i width group) {s : State} (hs : Accepted s)
    (hfit : s.inLen.toNat ≤ s.ibufSz.bytes) {out : List Byte}
    (hout : convertAll width group s.input (some s.obufSz.bytes) = .ok out) : SucceedsWith i out s := by
  obtain ⟨pass, hexec, hrun⟩ := hi.loopRuns hs hfit
  rw [hout] at hrun
  generalize hloop : groupLoop pass s.inLen.toNat s = r at hrun
  cases hrun with
  | ok h => exact succeedsWith_of_exec hs h (hexec.trans (runBuffer_of_ok hfit hloop))

theorem RunsGroups.failsWith (hi : RunsGroups i width group) {s : State} (hs : Accepted s)
    (hfit : s.inLen.toNat ≤ s.ibufSz.bytes) {k : ErrKind}
    (hk : convertAll width group s.input (some s.obufSz.bytes) = .err k) : FailsWith i k.code s := by
  obtain ⟨pass, hexec, hrun⟩ := hi.loopRuns hs hfit
  rw [hk] at hrun
  generalize hloop : groupLoop pass s.inLen.toNat s = r at hrun
  cases hrun
  exact failsWith_of_exec (hexec.trans (runBuffer_of_err hfit hloop))

/-- The command on no input completes with no output. -/
theorem RunsGroups.of_empty (hi : RunsGroups i width group) {s : State} (hs : Accepted s) (hlen : s.inLen = 0) :
    ∃ t, exec i s = .next t ∧ t.outLen = 0 ∧ t.status.done = true := by
  have hinput : s.input = [] := List.eq_nil_of_length_eq_zero (by simp [hlen])
  obtain ⟨t, hexec, hflags, -, -, ⟨hout, -⟩, -⟩ :=
    hi.succeedsWith hs (by simp [hlen]) (out := []) (by rw [hinput]; rfl)
  exact ⟨t, hexec, BitVec.eq_of_toNat_eq hout, congrArg Status.done hflags⟩

/-- A command that has completed has converted its input. -/
theorem RunsGroups.of_done (hi : RunsGroups i width group) {s t : State} (hs : Accepted s)
    (hexec : exec i s = .next t) (hdone : t.status.done = true) :
    ∃ out, convertAll width group s.input (some s.obufSz.bytes) = .ok out ∧ WroteOutput out s t := by
  have hnofail : ∀ {code}, ¬FailsWith i code s := fun hfail =>
    Bool.false_ne_true ((done_of_failsWith hfail hexec).symm.trans hdone)
  by_cases hfit : s.inLen.toNat ≤ s.ibufSz.bytes
  · cases hout : convertAll width group s.input (some s.obufSz.bytes) with
    | ok out =>
      obtain ⟨t', hexec', -, -, -, hwrote, -⟩ := hi.succeedsWith hs hfit hout
      obtain rfl : t = t' := Host.Outcome.next.inj (hexec.symm.trans hexec')
      exact ⟨out, rfl, hwrote⟩
    | err k => exact absurd (hi.failsWith hs hfit hout) hnofail
  · exact absurd (hi.failsWith_range (Nat.lt_of_not_le hfit)) hnofail

/-- Two commands whose pure functions undo each other do so on the engine (42_triplet.md R139). -/
theorem RunsGroups.roundTrip (hi : RunsGroups i width group) {j : Instr} {width' : Nat}
    {group' : List Byte → Res (List Byte)} (hj : RunsGroups j width' group')
    (hpure : ∀ x y cap cap', convertAll width group x (some cap) = .ok y → x.length ≤ cap' →
      convertAll width' group' y (some cap') = .ok x) :
    RoundTripOnTheEngine i j := by
  intro s t u hs hexec hdone hu hlen hbytes hibuf hobuf
  obtain ⟨out, hout, houtLen, hwritten, -⟩ := hi.of_done hs hexec hdone
  have hinput : u.input = out := by
    refine List.ext_getElem (by rw [input_length, hlen, houtLen]) fun k hk hk' => ?_
    rw [← hwritten k hk', ← hbytes k (houtLen ▸ hk')]
    simp [State.input]
  refine hj.succeedsWith hu (hlen ▸ hibuf) ?_
  rw [hinput]
  exact hpure _ _ _ _ hout (by rwa [input_length])

end

/-! Digits and characters (41_alphabet.md R100, R104). -/

theorem d2c_eq_of_le {d : Nat} (hd : d ≤ 44) : d2c d = .ok (alphaRom.getD d 0) := if_neg (Nat.not_lt.2 hd)

theorem c2d_alpha {d : Nat} (hd : d ≤ 44) : c2d (alphaRom.getD d 0).toNat = .ok d :=
  c2d_eq_ok_iff_d2c.2 (d2c_eq_of_le hd)

theorem le_of_c2d {x : Byte} {d : Nat} (h : c2d x.toNat = .ok d) : d ≤ 44 := by
  obtain ⟨hd, -⟩ := List.getElem?_eq_some_iff.1 (c2d_eq_ok_iff.1 h)
  exact Nat.le_of_lt_succ hd

theorem c2d_err {x : Nat} {k : ErrKind} (h : c2d x = .err k) : k = .invalidCharacter := by
  unfold c2d at h
  split at h
  · exact (Res.err.inj h).symm
  · split at h
    · cases h
    · exact (Res.err.inj h).symm

/-- The characters of digits. -/
def spell (digits : List Nat) : List Byte := digits.map fun d => alphaRom.getD d 0

theorem digitsToChars_of_le {digits : List Nat} (h : ∀ d ∈ digits, d ≤ 44) :
    digitsToChars digits = .ok (spell digits) := by
  induction digits with
  | nil => rfl
  | cons d rest ih =>
    obtain ⟨hd, hrest⟩ := List.forall_mem_cons.1 h
    rw [digitsToChars, d2c_eq_of_le hd, ih hrest]
    rfl

/-! ENC45 (42_triplet.md R121 to R126). -/

/-- The three digits of a pair's value, low digit first (R121). -/
def tripletDigits (n : Nat) : List Nat := [n % 2025 % 45, n % 2025 / 45, n / 2025]

/-- R124: the third digit is at most 65535 div 2025. -/
theorem tripletDigits_le {n : Nat} (hn : n ≤ 65535) :
    n % 2025 % 45 ≤ 44 ∧ n % 2025 / 45 ≤ 44 ∧ n / 2025 ≤ 32 := by omega

/-- The value of two bytes (R121). -/
def pairValue (a b : Byte) : Nat := a.toNat * 256 + b.toNat

theorem pairValue_le (a b : Byte) : pairValue a b ≤ 65535 := by
  have ha := a.isLt
  have hb := b.isLt
  unfold pairValue
  omega

theorem enc45Group_pair (a b : Byte) : enc45Group [a, b] = .ok (spell (tripletDigits (pairValue a b))) := by
  refine digitsToChars_of_le fun d hd => ?_
  obtain ⟨h0, h1, h2⟩ := tripletDigits_le (pairValue_le a b)
  simp only [List.mem_cons, List.not_mem_nil, or_false] at hd
  rcases hd with rfl | rfl | rfl
  · exact h0
  · exact h1
  · exact Nat.le_trans h2 (by omega)

theorem enc45Group_single (a : Byte) : enc45Group [a] = .ok (spell [a.toNat % 45, a.toNat / 45]) := by
  refine digitsToChars_of_le fun d hd => ?_
  have ha := a.isLt
  simp only [List.mem_cons, List.not_mem_nil, or_false] at hd
  omega

/-- R124: ENC45's lookups stay in ALPHA. -/
theorem enc45Group_ok (g : List Byte) : ∃ out, enc45Group g = .ok out :=
  match g with
  | [] => ⟨_, rfl⟩
  | [a] => ⟨_, enc45Group_single a⟩
  | [a, b] => ⟨_, enc45Group_pair a b⟩
  | _ :: _ :: _ :: _ => ⟨_, rfl⟩

/-- The whole output of ENC45. -/
def enc45Chars : List Byte → List Byte
  | [] => []
  | [a] => spell [a.toNat % 45, a.toNat / 45]
  | a :: b :: rest => spell (tripletDigits (pairValue a b)) ++ enc45Chars rest

theorem converts_enc45Chars : ∀ x : List Byte, Converts 2 enc45Group x (enc45Chars x)
  | [] => .nil
  | [a] => .single (List.cons_ne_nil _ _) (by simp) (enc45Group_single a)
  | a :: b :: rest => .step (List.cons_ne_nil _ _) (enc45Group_pair a b) (converts_enc45Chars rest)

theorem enc45_none (x : List Byte) : enc45 x none = .ok (enc45Chars x) :=
  (convertAll_eq_ok_iff (by omega)).2 ⟨converts_enc45Chars x, rfl⟩

theorem enc45_eq_ok_iff {x out : List Byte} {cap : Option Nat} :
    enc45 x cap = .ok out ↔ out = enc45Chars x ∧ fits cap out.length = true := by
  rw [enc45, convertAll_eq_ok_iff (by omega)]
  refine and_congr_left fun _ => ⟨fun h => ?_, fun h => h ▸ converts_enc45Chars x⟩
  have hnone : enc45 x none = .ok out := (convertAll_eq_ok_iff (by omega)).2 ⟨h, rfl⟩
  exact Res.ok.inj (hnone.symm.trans (enc45_none x))

theorem enc45_err {x : List Byte} {cap : Option Nat} {k : ErrKind} (h : enc45 x cap = .err k) :
    k = .outputOverflow := by
  rcases convertAll_err h with hk | ⟨g, hg⟩
  · exact hk
  · obtain ⟨out, hout⟩ := enc45Group_ok g
    cases hg.symm.trans hout

/-- R125. -/
theorem enc45Chars_length : ∀ x : List Byte, (enc45Chars x).length = enc45Length x.length
  | [] => rfl
  | [_] => by simp [enc45Chars, spell, enc45Length]
  | a :: b :: rest => by
    have hrest := enc45Chars_length rest
    simp only [enc45Chars, spell, tripletDigits, List.length_append, List.length_map, List.length_cons,
      List.length_nil, enc45Length] at hrest ⊢
    omega

theorem enc45_pair (a b : Byte) : enc45 [a, b] none = .ok (spell (tripletDigits (pairValue a b))) :=
  (convertAll_single (List.cons_ne_nil _ _) (Nat.le_refl 2)).trans (enc45Group_pair a b)

theorem enc45_single (a : Byte) : enc45 [a] none = .ok (spell [a.toNat % 45, a.toNat / 45]) :=
  (convertAll_single (List.cons_ne_nil _ _) (Nat.le_succ 1)).trans (enc45Group_single a)

/-- R120's example: the value 16706 is 11 + 45 * 11 + 2025 * 8. -/
theorem enc45_65_66 : enc45 [65, 66] none = .ok [0x42, 0x42, 0x38] :=
  (enc45_pair 65 66).trans (by simp [spell, tripletDigits, pairValue, alphaRom])

/-! DEC45 (42_triplet.md R131 to R138). -/

section
variable {x y z : Byte} {c d e : Nat} (hc : c2d x.toNat = .ok c) (hd : c2d y.toNat = .ok d)
include hc hd

theorem dec45Group_triplet (he : c2d z.toNat = .ok e) :
    dec45Group [x, y, z] =
      if 65535 < c + 45 * d + 2025 * e then .err .accumulatorOverflow
      else .ok [BitVec.ofNat 8 ((c + 45 * d + 2025 * e) / 256), BitVec.ofNat 8 ((c + 45 * d + 2025 * e) % 256)] := by
  simp only [dec45Group, hc, hd, he, Res.bind_ok, tripletValue]
  split <;> rfl

/-- R137: a pair's value is at most 44 + 45 * 44. -/
theorem dec45Group_pair : dec45Group [x, y] = .ok [BitVec.ofNat 8 ((c + 45 * d) % 256)] := by
  have := le_of_c2d hc
  have := le_of_c2d hd
  simp only [dec45Group, hc, hd, Res.bind_ok, tripletValue]
  rw [if_neg (show ¬65535 < c + 45 * d + 2025 * 0 by omega)]
  rfl

end

theorem tripletValue_err {c d e : Nat} {k : ErrKind} (h : tripletValue c d e = .err k) :
    k = .accumulatorOverflow := by
  simp only [tripletValue] at h
  split at h
  · exact (Res.err.inj h).symm
  · cases h

/-- R132, R133: the errors of a group. -/
theorem dec45Group_err {g : List Byte} {k : ErrKind} (h : dec45Group g = .err k) :
    k = .invalidCharacter ∨ k = .accumulatorOverflow ∨ k = .truncatedInput := by
  match g with
  | [] => cases h
  | [_] => exact .inr (.inr (Res.err.inj h).symm)
  | [x, y] =>
    rcases Res.bind_eq_err.1 h with hc | ⟨c, -, h⟩
    · exact .inl (c2d_err hc)
    rcases Res.bind_eq_err.1 h with hd | ⟨d, -, h⟩
    · exact .inl (c2d_err hd)
    rcases Res.bind_eq_err.1 h with hacc | ⟨acc, -, h⟩
    · exact .inr (.inl (tripletValue_err hacc))
    · cases h
  | [x, y, z] =>
    rcases Res.bind_eq_err.1 h with hc | ⟨c, -, h⟩
    · exact .inl (c2d_err hc)
    rcases Res.bind_eq_err.1 h with hd | ⟨d, -, h⟩
    · exact .inl (c2d_err hd)
    rcases Res.bind_eq_err.1 h with he | ⟨e, -, h⟩
    · exact .inl (c2d_err he)
    rcases Res.bind_eq_err.1 h with hacc | ⟨acc, -, h⟩
    · exact .inr (.inl (tripletValue_err hacc))
    · cases h
  | _ :: _ :: _ :: _ :: _ => cases h

/-- R132, R138: a group that converts has two or three characters, and gives one byte less. -/
theorem dec45Group_length {g out : List Byte} (h : dec45Group g = .ok out) (hne : g ≠ []) (hlen : g.length ≤ 3) :
    2 ≤ g.length ∧ g.length = out.length + 1 := by
  match g with
  | [] => exact absurd rfl hne
  | [_] => cases h
  | [x, y] =>
    obtain ⟨c, -, h⟩ := Res.bind_eq_ok.1 h
    obtain ⟨d, -, h⟩ := Res.bind_eq_ok.1 h
    obtain ⟨acc, -, h⟩ := Res.bind_eq_ok.1 h
    obtain rfl := Res.ok.inj h
    simp
  | [x, y, z] =>
    obtain ⟨c, -, h⟩ := Res.bind_eq_ok.1 h
    obtain ⟨d, -, h⟩ := Res.bind_eq_ok.1 h
    obtain ⟨e, -, h⟩ := Res.bind_eq_ok.1 h
    obtain ⟨acc, -, h⟩ := Res.bind_eq_ok.1 h
    obtain rfl := Res.ok.inj h
    simp
  | _ :: _ :: _ :: _ :: _ =>
    simp only [List.length_cons] at hlen
    omega

theorem converts_dec45_length {input out : List Byte} (h : Converts 3 dec45Group input out) :
    input.length % 3 ≠ 1 ∧ out.length = 2 * (input.length / 3) + (if input.length % 3 = 2 then 1 else 0) := by
  induction h with
  | nil => simp
  | @step input g out hne hgroup _ ih =>
    have hpos := List.length_pos_iff.2 hne
    obtain ⟨htwo, hlen⟩ := dec45Group_length hgroup (List.length_pos_iff.1 (by rw [List.length_take]; omega))
      (by rw [List.length_take]; omega)
    rw [List.length_take] at htwo hlen
    rw [List.length_drop] at ih
    rw [List.length_append]
    obtain ⟨hrem, hout⟩ := ih
    split at hout <;> split <;> omega

/-! DEC45 undoes ENC45 (42_triplet.md R139). -/

theorem dec45Group_spell_triplet {n : Nat} (hn : n ≤ 65535) :
    dec45Group (spell (tripletDigits n)) = .ok [BitVec.ofNat 8 (n / 256), BitVec.ofNat 8 (n % 256)] := by
  obtain ⟨h0, h1, h2⟩ := tripletDigits_le hn
  have hvalue : n % 2025 % 45 + 45 * (n % 2025 / 45) + 2025 * (n / 2025) = n := by omega
  have hgroup := dec45Group_triplet (c2d_alpha h0) (c2d_alpha h1) (c2d_alpha (Nat.le_trans h2 (by omega)))
  rw [hvalue, if_neg (Nat.not_lt.2 hn)] at hgroup
  exact hgroup

theorem dec45Group_spell_pair {n : Nat} (hn : n ≤ 255) :
    dec45Group (spell [n % 45, n / 45]) = .ok [BitVec.ofNat 8 n] := by
  have hvalue : n % 45 + 45 * (n / 45) = n := by omega
  have hgroup := dec45Group_pair (c2d_alpha (d := n % 45) (by omega)) (c2d_alpha (d := n / 45) (by omega))
  rw [hvalue, Nat.mod_eq_of_lt (show n < 256 by omega)] at hgroup
  exact hgroup

theorem pairValue_bytes (a b : Byte) :
    [BitVec.ofNat 8 (pairValue a b / 256), BitVec.ofNat 8 (pairValue a b % 256)] = [a, b] := by
  have hb := b.isLt
  have hhigh : pairValue a b / 256 = a.toNat := by unfold pairValue; omega
  have hlow : pairValue a b % 256 = b.toNat := by unfold pairValue; omega
  rw [hhigh, hlow, BitVec.ofNat_toNat, BitVec.ofNat_toNat, BitVec.setWidth_eq, BitVec.setWidth_eq]

theorem converts_dec45_enc45Chars : ∀ x : List Byte, Converts 3 dec45Group (enc45Chars x) x
  | [] => .nil
  | [a] => by
    have hgroup := dec45Group_spell_pair (n := a.toNat) (Nat.le_of_lt_succ a.isLt)
    rw [BitVec.ofNat_toNat, BitVec.setWidth_eq] at hgroup
    exact .single (g := spell [a.toNat % 45, a.toNat / 45]) (List.cons_ne_nil _ _) (Nat.le_succ 2) hgroup
  | a :: b :: rest => by
    have hgroup := dec45Group_spell_triplet (pairValue_le a b)
    rw [pairValue_bytes] at hgroup
    exact .step (input := enc45Chars (a :: b :: rest)) (g := [a, b]) (List.cons_ne_nil _ _) hgroup
      (converts_dec45_enc45Chars rest)

theorem dec45_of_enc45 {x s : List Byte} {cap cap' : Option Nat} (h : enc45 x cap = .ok s)
    (hfits : fits cap' x.length = true) : dec45 s cap' = .ok x := by
  obtain ⟨rfl, -⟩ := enc45_eq_ok_iff.1 h
  exact (convertAll_eq_ok_iff (by omega)).2 ⟨converts_dec45_enc45Chars x, hfits⟩

/-! The passes of the two commands (42_triplet.md R122, R134). -/

theorem widen_toNat (v : Byte) : (widen v).toNat = v.toNat := BitVec.toNat_setWidth_of_le (by decide)

/-- IN_POS does not wrap, since IBUF holds at most 2^16 bytes (00_scope.md R8). -/
theorem consumed_consume {t : State} {width k : Nat} (hleft : t.dp.inPos.toNat < t.inLen.toNat)
    (hfit : t.inLen.toNat ≤ t.ibufSz.bytes) (hk : k = min width t.remaining) (v : Acc) :
    Consumed width t ((t.loadAcc v).consume k) where
  engineOnly := rfl
  obuf := rfl
  outPos := rfl
  inPos := by
    obtain ⟨-, hsize, -⟩ := bytes_bounds t.ibufSz
    rw [State.remaining] at hk
    simp only [State.consume_dp, State.loadAcc_dp]
    rw [BitVec.toNat_add, BitVec.toNat_ofNat]
    omega

/-- R122: ACC holds a pair's value. -/
theorem pairAcc_toNat (a b : Byte) : (widen a * 256 + widen b).toNat = pairValue a b := by
  have ha := widen_toNat a
  have hb := widen_toNat b
  unfold pairValue
  bv_omega

theorem enc45Pair_eq (t : State) :
    enc45Pair t = (enc45Group [t.peek 0, t.peek 1]).bind fun out =>
      ((t.loadAcc (widen (t.peek 0) * 256 + widen (t.peek 1))).consume 2).emitGroup out := by
  simp only [enc45Pair, State.loadAcc_dp, BitVec.toNat_umod, BitVec.toNat_udiv, pairAcc_toNat]
  rfl

theorem enc45Single_eq (t : State) :
    enc45Single t = (enc45Group [t.peek 0]).bind fun out =>
      ((t.loadAcc (widen (t.peek 0))).consume 1).emitGroup out := by
  simp only [enc45Single, State.loadAcc_dp, BitVec.toNat_umod, BitVec.toNat_udiv, widen_toNat]
  rfl

/-- R121, R122: a pass of ENC45 takes two bytes, or the last one. -/
theorem enc45_runsGroups : RunsGroups .enc45 2 enc45Group := by
  refine ⟨enc45Pass, fun _ => rfl, fun t hleft hfit => ?_⟩
  rw [unread_take]
  unfold enc45Pass
  split
  case isTrue htwo =>
    have hmin : 2 = min 2 t.remaining := (Nat.min_eq_left htwo).symm
    rw [← hmin, enc45Pair_eq]
    exact .emit (consumed_consume hleft hfit hmin _)
  case isFalse hfew =>
    have hmin : 1 = min 2 t.remaining := by unfold State.remaining at hfew ⊢; omega
    rw [← hmin, enc45Single_eq]
    exact .emit (consumed_consume hleft hfit hmin _)

/-- R134, R135: ACC holds a triplet's value. -/
theorem tripletAcc_toNat {c d e : Nat} (hc : c ≤ 44) (hd : d ≤ 44) (he : e ≤ 44) :
    (BitVec.ofNat 64 c + 45 * BitVec.ofNat 64 d + 2025 * BitVec.ofNat 64 e : Acc).toNat =
      c + 45 * d + 2025 * e := by
  bv_omega

theorem lowByte_eq {v : Acc} {n : Nat} (h : v.toNat = n) : lowByte v = BitVec.ofNat 8 (n % 256) := by
  subst h
  refine BitVec.eq_of_toNat_eq ?_
  simp [lowByte]

theorem lowByte_div_eq {v : Acc} {n : Nat} (h : v.toNat = n) : lowByte (v / 256) = BitVec.ofNat 8 (n / 256) := by
  subst h
  refine BitVec.eq_of_toNat_eq ?_
  simp [lowByte]

/-- The group's value and its overflow check are the pass's (R131, R135). -/
theorem PassRuns.bind_triplet {width : Nat} {t : State} {c d e : Nat} {f : Nat → Res (List Byte)}
    {f' : State → Res State} (hc : c ≤ 44) (hd : d ≤ 44) (he : e ≤ 44)
    (hf : ∀ v : Acc, v.toNat = c + 45 * d + 2025 * e →
      PassRuns width t (f (c + 45 * d + 2025 * e)) (f' (t.loadAcc v))) :
    PassRuns width t ((tripletValue c d e).bind f) ((loadTriplet c d e t).bind f') := by
  have hacc := tripletAcc_toNat hc hd he
  rw [loadTriplet_eq, hacc, tripletValue]
  by_cases hover : 65535 < c + 45 * d + 2025 * e
  · rw [if_pos hover, if_pos hover]
    exact .err _
  · rw [if_neg hover, if_neg hover]
    exact hf _ hacc

/-- R131, R134: a pass of DEC45 takes three characters, or the last two, or refuses a single last one. -/
theorem dec45_runsGroups : RunsGroups .dec45 3 dec45Group := by
  refine ⟨dec45Pass, fun _ => rfl, fun t hleft hfit => ?_⟩
  rw [unread_take]
  unfold dec45Pass
  split
  case isTrue hone =>
    rw [hone]
    exact .err _
  case isFalse hmore =>
    split
    case isTrue hthree =>
      have hmin : 3 = min 3 t.remaining := (Nat.min_eq_left hthree).symm
      rw [← hmin]
      refine .bind_same fun c hc => .bind_same fun d hd => .bind_same fun e he => ?_
      refine .bind_triplet (le_of_c2d hc) (le_of_c2d hd) (le_of_c2d he) fun v hv => ?_
      rw [← lowByte_eq hv, ← lowByte_div_eq hv]
      exact .ok (consumed_consume hleft hfit hmin v)
    case isFalse hfew =>
      have hmin : 2 = min 3 t.remaining := by unfold State.remaining at hmore hfew ⊢; omega
      rw [← hmin]
      refine .bind_same fun c hc => .bind_same fun d hd => ?_
      refine .bind_triplet (le_of_c2d hc) (le_of_c2d hd) (Nat.zero_le 44) fun v hv => ?_
      rw [← lowByte_eq hv]
      exact .ok (consumed_consume hleft hfit hmin v)

/-! The contracts and the properties of the codec (42_triplet.md R120, R123 to R126, R130, R136 to R139). -/

/-- Settles O14: the engine's passes convert ENC45's groups, and the output's length alone decides the overflow. -/
theorem enc45MeetsItsContract : Obligations.Enc45MeetsItsContract := by
  have hcontract := enc45_runsGroups
  refine ⟨by decide, fun s _ hlong => hcontract.failsWith_range hlong, fun s hs hfit hover => ?_,
    fun s hs hfit hroom => ?_, enc45_65_66⟩
  · cases hout : enc45 s.input (some s.obufSz.bytes) with
    | ok out =>
      obtain ⟨rfl, hfits⟩ := enc45_eq_ok_iff.1 hout
      rw [fits_some, enc45Chars_length, input_length] at hfits
      omega
    | err k =>
      obtain rfl := enc45_err hout
      exact ⟨rfl, hcontract.failsWith hs hfit hout⟩
  · have hout : enc45 s.input (some s.obufSz.bytes) = .ok (enc45Chars s.input) :=
      enc45_eq_ok_iff.2 ⟨rfl, by rwa [fits_some, enc45Chars_length, input_length]⟩
    exact ⟨_, hout, hcontract.succeedsWith hs hfit hout⟩

/-- Settles O15: the engine's passes convert DEC45's groups, and the errors are a group's or the capacity's. -/
theorem dec45MeetsItsContract : Obligations.Dec45MeetsItsContract := by
  refine ⟨by decide, fun s _ hlong => dec45_runsGroups.failsWith_range hlong, fun s k hs hfit hk => ⟨?_, ?_⟩,
    fun s out hs hfit hout => dec45_runsGroups.succeedsWith hs hfit hout, by decide⟩
  · rcases convertAll_err hk with rfl | ⟨g, hg⟩
    · exact .inr (.inr (.inr rfl))
    · rcases dec45Group_err hg with rfl | rfl | rfl
      · exact .inl rfl
      · exact .inr (.inl rfl)
      · exact .inr (.inr (.inl rfl))
  · exact dec45_runsGroups.failsWith hs hfit hk

/-- Settles O27: the digits of a group spell its value, so DEC45 reads back each group that ENC45 gives; the engine
meets both functions. "ZZ" is a pair that ENC45 does not give. -/
theorem tripletRoundTrip : Obligations.TripletRoundTrip :=
  ⟨fun _ _ h => dec45_of_enc45 h rfl, fun _ _ _ _ h hlen => dec45_of_enc45 h ((fits_some _ _).2 hlen),
    enc45_runsGroups.roundTrip dec45_runsGroups fun _ _ _ _ h hlen => dec45_of_enc45 h ((fits_some _ _).2 hlen),
    codes "ZZ", [74], by decide, by decide⟩

/-- Settles O20: the digits are the quotients and remainders of R121, in the ranges of R124. -/
theorem enc45DigitsSpellTheValue : Obligations.Enc45DigitsSpellTheValue := by
  refine ⟨fun a b => ⟨_, _, _, enc45_pair a b, ?_⟩, fun a => ⟨_, _, enc45_single a, ?_⟩⟩
  · obtain ⟨h0, h1, h2⟩ := tripletDigits_le (pairValue_le a b)
    refine ⟨h0, h1, h2, ?_⟩
    have hvalue : pairValue a b = a.toNat * 256 + b.toNat := rfl
    omega
  · have ha := a.isLt
    omega

/-- Settles O21: ENC45 converts every group, and its characters are counted along the input. -/
theorem enc45OutputLength : Obligations.Enc45OutputLength :=
  ⟨fun x => ⟨_, enc45_none x, enc45Chars_length x⟩, enc45_none [],
    fun _ hs hlen => enc45_runsGroups.of_empty hs hlen⟩

/-- Settles O24: a triplet alone is its group, which raises by its value only. -/
theorem dec45OverflowBound : Obligations.Dec45OverflowBound := by
  refine ⟨fun x y z c d e hc hd he => ?_, by decide⟩
  have hgroup : dec45 [x, y, z] none = dec45Group [x, y, z] :=
    convertAll_single (List.cons_ne_nil _ _) (Nat.le_refl 3)
  have hiff : dec45 [x, y, z] none = .err .accumulatorOverflow ↔ 65535 < c + 45 * d + 2025 * e := by
    rw [hgroup, dec45Group_triplet hc hd he]
    split <;> simp_all
  have hc' := le_of_c2d hc
  have hd' := le_of_c2d hd
  have he' := le_of_c2d he
  rw [hiff, Ne, hiff]
  omega

/-- Settles O25: a pair alone is its group; ENC45's pair spells a byte. -/
theorem dec45FinalPair : Obligations.Dec45FinalPair := by
  refine ⟨fun x y c d hc hd => ⟨?_, ?_⟩, fun a x y c d henc hc hd => ?_, by decide, by decide⟩
  · have hc' := le_of_c2d hc
    have hd' := le_of_c2d hd
    omega
  · exact (convertAll_single (List.cons_ne_nil _ _) (Nat.le_succ 2)).trans (dec45Group_pair hc hd)
  · have hx := Res.ok.inj ((enc45_single a).symm.trans henc)
    have ha := a.isLt
    simp only [spell, List.map_cons, List.map_nil, List.cons.injEq, and_true] at hx
    obtain ⟨rfl, rfl⟩ := hx
    rw [c2d_alpha (by omega)] at hc hd
    cases hc
    cases hd
    omega

/-- Settles O26, by induction on the groups that convert. -/
theorem dec45Lengths : Obligations.Dec45Lengths :=
  ⟨fun _ _ h => converts_dec45_length ((convertAll_eq_ok_iff (by omega)).1 h).1, rfl,
    fun _ hs hlen => dec45_runsGroups.of_empty hs hlen⟩

/-- Settles O22: a byte up to 44 is its own low digit. -/
theorem enc45SingleByte : Obligations.Enc45SingleByte := by
  refine ⟨fun v hv => ?_, fun v _ => ⟨_, enc45_single v⟩⟩
  rw [enc45_single, Nat.mod_eq_of_lt (by omega), Nat.div_eq_of_lt (by omega)]
  rfl

end Sys2Proof.Proofs
end

section
/-! SUPPORT. The proofs about the chunked codec (43_chunked.md): the two chunk tables, the digits and the bytes that
spell a chunk's value, and the engine's passes as the two codecs' chunks. -/
namespace Sys2Proof.Proofs

open Sys2Proof.Machine Sys2Proof.Claims

/-! The chunk tables (10_state.md R43, R44; 43_chunked.md R151, R153, R154). -/

/-- R151: B2D answers exactly B2D_ROM's entries; past the table it raises. -/
theorem b2d_eq_ok_iff {n d : Nat} : b2d n = .ok d ↔ b2dRom[n]? = some d := by
  unfold b2d
  split
  case isTrue hn =>
    have hnone : b2dRom[n]? = none := List.getElem?_eq_none hn
    simp [hnone]
  case isFalse hn =>
    have hlt : n < b2dRom.length := Nat.lt_of_not_le hn
    simp [hlt]

/-- R153: D2B answers exactly D2B_ROM's valid entries. -/
theorem d2b_eq_ok_iff {m n : Nat} : d2b m = .ok n ↔ d2bRom[m]? = some (some n) := by
  unfold d2b
  split
  case isTrue hm =>
    have hnone : d2bRom[m]? = none := List.getElem?_eq_none hm
    simp [hnone]
  case isFalse hm =>
    have hlt : m < d2bRom.length := Nat.lt_of_not_le hm
    rw [List.getD_eq_getElem?_getD, List.getElem?_eq_getElem hlt, Option.getD_some]
    cases d2bRom[m] <;> simp

theorem d2b_err {m : Nat} {k : ErrKind} (h : d2b m = .err k) : k = .invalidChunkLength := by
  unfold d2b at h
  split at h
  · exact (Res.err.inj h).symm
  · split at h
    · cases h
    · exact (Res.err.inj h).symm

theorem b2d_of_le {n : Nat} (hn : n ≤ 7) : b2d n = .ok (b2dRom.getD n 0) := if_neg (Nat.not_lt.2 hn)

theorem byteCount_le_of_b2d {n d : Nat} (h : b2d n = .ok d) : n ≤ 7 := by
  obtain ⟨hn, -⟩ := List.getElem?_eq_some_iff.1 (b2d_eq_ok_iff.1 h)
  exact Nat.le_of_lt_succ hn

/-- R154 (1): a chunk's digits have room for every value of its bytes. -/
theorem b2dRom_lossless : ∀ n ≤ 7, 256 ^ n ≤ 45 ^ b2dRom.getD n 0 := by decide

/-- R154 (2): one digit less has not. -/
theorem b2dRom_minimal : ∀ n ≤ 7, b2dRom.getD n 0 = 0 ∨ 45 ^ (b2dRom.getD n 0 - 1) < 256 ^ n := by decide

/-- R154 (3). -/
theorem d2b_b2dRom : ∀ n ≤ 7, d2b (b2dRom.getD n 0) = .ok n := by decide

/-- R154 (4). -/
theorem b2dRom_strictMono : ∀ n' ≤ 7, ∀ n < n', b2dRom.getD n 0 < b2dRom.getD n' 0 := by decide

/-- R154 (4): a valid entry of D2B_ROM is at a digit count that B2D_ROM gives. -/
theorem b2d_of_d2b {m n : Nat} (h : d2b m = .ok n) : b2d n = .ok m := by
  have hrom : ∀ i : Fin d2bRom.length, ∀ b ∈ d2bRom[i], b2d b = .ok i.val := by decide
  obtain ⟨hm, hn⟩ := List.getElem?_eq_some_iff.1 (d2b_eq_ok_iff.1 h)
  exact hrom ⟨m, hm⟩ n hn

theorem d2b_eq_ok_iff_b2d {m n : Nat} : d2b m = .ok n ↔ b2d n = .ok m := by
  refine ⟨b2d_of_d2b, fun h => ?_⟩
  have hn := byteCount_le_of_b2d h
  obtain rfl := Res.ok.inj ((b2d_of_le hn).symm.trans h)
  exact d2b_b2dRom n hn

/-- A valid digit count gives at most a full chunk of bytes. -/
theorem byteCount_le_of_d2b {m n : Nat} (h : d2b m = .ok n) : n ≤ 7 := byteCount_le_of_b2d (b2d_of_d2b h)

/-- Settles O8: the two ROMs are inverse, and the laws of the numbers are checked on the ROM's eight entries. -/
theorem chunkTableLaws : Obligations.ChunkTableLaws := by
  refine ⟨fun n hn => ⟨_, b2d_of_le hn, b2dRom_lossless n hn, b2dRom_minimal n hn, d2b_b2dRom n hn⟩,
    fun n n' d d' hlt hd hd' => ?_, fun m n => ?_⟩
  · have hn' := byteCount_le_of_b2d hd'
    obtain rfl := Res.ok.inj ((b2d_of_le (by omega)).symm.trans hd)
    obtain rfl := Res.ok.inj ((b2d_of_le hn').symm.trans hd')
    exact b2dRom_strictMono n' hn' n hlt
  · exact d2b_eq_ok_iff_b2d.trans ⟨fun h => ⟨byteCount_le_of_b2d h, h⟩, And.right⟩

/-! Numbers in a base (00_scope.md R55; 43_chunked.md R161, R171, R177). -/

theorem bigEndian_append (base : Nat) (digits : List Nat) (d : Nat) :
    bigEndian base (digits ++ [d]) = bigEndian base digits * base + d := by
  simp [bigEndian]

/-- Induction from a list's last element, as a number takes its last digit; the package's modules build on core Lean,
which has no such principle. -/
theorem snoc_induction {α : Type} {motive : List α → Prop} (nil : motive [])
    (snoc : ∀ xs x, motive xs → motive (xs ++ [x])) (xs : List α) : motive xs := by
  have hreverse : ∀ ys : List α, motive ys.reverse := fun ys => by
    induction ys with
    | nil => exact nil
    | cons y ys ih =>
      rw [List.reverse_cons]
      exact snoc _ y ih
  rw [← List.reverse_reverse xs]
  exact hreverse _

theorem bigEndian_lt {base : Nat} {digits : List Nat} (h : ∀ d ∈ digits, d < base) :
    bigEndian base digits < base ^ digits.length := by
  induction digits using snoc_induction with
  | nil => exact Nat.one_pos
  | snoc digits d ih =>
    obtain ⟨hdigits, hd⟩ := List.forall_mem_append.1 h
    have hmul := Nat.mul_le_mul_right base (Nat.succ_le_of_lt (ih hdigits))
    have hlast := hd d (List.mem_singleton_self d)
    rw [Nat.succ_mul] at hmul
    rw [bigEndian_append, List.length_append, List.length_singleton, Nat.pow_succ]
    omega

theorem bigEndian_values_lt (bytes : List Byte) : bigEndian 256 (values bytes) < 256 ^ bytes.length := by
  rw [← List.length_map (f := BitVec.toNat) (as := bytes)]
  refine bigEndian_lt fun d hd => ?_
  obtain ⟨b, -, rfl⟩ := List.mem_map.1 hd
  exact b.isLt

theorem lowDigits_length (k n : Nat) : (lowDigits k n).length = k := by
  induction k generalizing n with
  | zero => rfl
  | succ k ih => exact congrArg (· + 1) (ih (n / 45))

/-- R165. -/
theorem lowDigits_le {k n d : Nat} (hd : d ∈ lowDigits k n) : d ≤ 44 := by
  induction k generalizing n with
  | zero => cases hd
  | succ k ih =>
    rcases List.mem_cons.1 hd with rfl | hd
    · omega
    · exact ih hd

/-- `k` digits spell the number below `45^k` that the number leaves. -/
theorem bigEndian_lowDigits (k n : Nat) : bigEndian 45 (lowDigits k n).reverse = n % 45 ^ k := by
  induction k generalizing n with
  | zero => exact (Nat.mod_one n).symm
  | succ k ih =>
    rw [lowDigits, List.reverse_cons, bigEndian_append, ih, Nat.pow_succ', Nat.mod_mul]
    omega

theorem pushBytes_length (n v : Nat) (lifo : List Byte) : (pushBytes n v lifo).length = n + lifo.length := by
  induction n generalizing v lifo with
  | zero => simp [pushBytes]
  | succ n ih =>
    rw [pushBytes, ih, List.length_cons]
    omega

/-- R177: the bytes of a number come back in big-endian order. -/
theorem pushBytes_bigEndian (bytes lifo : List Byte) :
    pushBytes bytes.length (bigEndian 256 (values bytes)) lifo = bytes ++ lifo := by
  induction bytes using snoc_induction generalizing lifo with
  | nil => rfl
  | snoc bytes b ih =>
    have hb := b.isLt
    have hvalue : bigEndian 256 (values (bytes ++ [b])) = bigEndian 256 (values bytes) * 256 + b.toNat := by
      rw [values, List.map_append]
      exact bigEndian_append _ _ _
    have hdiv : bigEndian 256 (values (bytes ++ [b])) / 256 = bigEndian 256 (values bytes) := by omega
    have hmod : bigEndian 256 (values (bytes ++ [b])) % 256 = b.toNat := by omega
    rw [List.length_append, List.length_singleton, pushBytes, hdiv, hmod, ih, BitVec.ofNat_toNat, BitVec.setWidth_eq,
      List.append_cons]

/-! More on the pure conversions in groups (00_scope.md R12; 40_control.md R96). -/

section
variable {width : Nat} {group : List Byte → Res (List Byte)}

theorem Converts.eq_nil {out : List Byte} (h : Converts width group [] out) : out = [] := by
  cases h with
  | nil => rfl
  | step hne => exact absurd rfl hne

/-- A group before the rest of an input: a full one, or the last. -/
theorem Converts.cons {g rest o out : List Byte} (hne : g ≠ []) (hlen : g.length ≤ width)
    (hfull : g.length < width → rest = []) (hgroup : group g = .ok o) (hrest : Converts width group rest out) :
    Converts width group (g ++ rest) (o ++ out) := by
  have hcut : (g ++ rest).take width = g ∧ (g ++ rest).drop width = rest := by
    rcases Nat.lt_or_eq_of_le hlen with hlt | rfl
    · rw [hfull hlt, List.append_nil]
      exact ⟨List.take_of_length_le hlen, List.drop_of_length_le hlen⟩
    · exact ⟨List.take_left, List.drop_left⟩
  refine .step (by simp [hne]) (by rwa [hcut.1]) ?_
  rwa [hcut.2]

/-- Where every group that can stand in an input converts, every input does. -/
theorem exists_converts (hwidth : 0 < width) (hgroup : ∀ g, g.length ≤ width → ∃ o, group g = .ok o)
    (input : List Byte) : ∃ out, Converts width group input out := by
  by_cases hne : input = []
  · subst hne
    exact ⟨[], .nil⟩
  · obtain ⟨o, ho⟩ := hgroup (input.take width) (List.length_take_le _ _)
    obtain ⟨out, hout⟩ := exists_converts hwidth hgroup (input.drop width)
    exact ⟨o ++ out, .step hne ho hout⟩
termination_by input.length
decreasing_by
  have := List.length_pos_iff.2 hne
  rw [List.length_drop]
  omega

theorem convert_overflow {cap : Option Nat} {input o : List Byte} (h : Converts width group input o) (n : Nat)
    {acc : List Byte} (hwidth : 0 < width) (hn : input.length ≤ n) (hacc : fits cap acc.length = true)
    (hfull : ¬fits cap (acc ++ o).length = true) :
    convert width group cap n acc input = .err .outputOverflow := by
  induction h generalizing n acc with
  | nil => simp [hacc] at hfull
  | @step input g o hne hgroup _ ih =>
    have hlen := List.length_pos_iff.2 hne
    obtain ⟨n, rfl⟩ : ∃ m, n = m + 1 := ⟨n - 1, by omega⟩
    rw [convert_succ hne, hgroup, Res.bind_ok]
    by_cases hfits : fits cap (acc ++ g).length = true
    · rw [append_of_fits hfits, Res.bind_ok]
      exact ih n (by rw [List.length_drop]; omega) hfits (by rwa [List.append_assoc])
    · rw [append_of_not_fits hfits, Res.bind_err]

/-- R93, R96: an input whose groups all convert overflows a capacity that its whole output does not fit. -/
theorem convertAll_overflow {cap : Option Nat} {input o : List Byte} (h : Converts width group input o)
    (hwidth : 0 < width) (hfull : ¬fits cap o.length = true) :
    convertAll width group input cap = .err .outputOverflow :=
  convert_overflow h input.length hwidth (Nat.le_refl _) (fits_zero cap) hfull

end

/-! A chunk of ENCQR (43_chunked.md R161, R164, R165). -/

/-- The digits that ENCQR spells a chunk with, most significant first (R161). -/
def digitsOfChunk (chunk : List Byte) : List Nat :=
  (lowDigits (b2dRom.getD chunk.length 0) (bigEndian 256 (values chunk))).reverse

theorem digitsOfChunk_length (chunk : List Byte) :
    (digitsOfChunk chunk).length = b2dRom.getD chunk.length 0 := by
  rw [digitsOfChunk, List.length_reverse, lowDigits_length]

theorem digitsOfChunk_le (chunk : List Byte) : ∀ d ∈ digitsOfChunk chunk, d ≤ 44 :=
  fun _ hd => lowDigits_le (List.mem_reverse.1 hd)

/-- R164: no bit of the input is lost. -/
theorem bigEndian_digitsOfChunk {chunk : List Byte} (hlen : chunk.length ≤ 7) :
    bigEndian 45 (digitsOfChunk chunk) = bigEndian 256 (values chunk) :=
  (bigEndian_lowDigits _ _).trans
    (Nat.mod_eq_of_lt (Nat.lt_of_lt_of_le (bigEndian_values_lt chunk) (b2dRom_lossless _ hlen)))

theorem encqrChunk_eq {chunk : List Byte} (hlen : chunk.length ≤ 7) :
    encqrChunk chunk = .ok (spell (digitsOfChunk chunk)) := by
  rw [encqrChunk, b2d_of_le hlen]
  exact digitsToChars_of_le (digitsOfChunk_le chunk)

theorem spell_length (digits : List Nat) : (spell digits).length = digits.length := List.length_map _

/-- R167, a chunk at a time. -/
theorem encqrChunk_length {chunk out : List Byte} (hlen : chunk.length ≤ 7) (h : encqrChunk chunk = .ok out) :
    out.length = b2dRom.getD chunk.length 0 := by
  obtain rfl := Res.ok.inj ((encqrChunk_eq hlen).symm.trans h)
  rw [spell_length, digitsOfChunk_length]

theorem converts_encqr_length {input out : List Byte} (h : Converts 7 encqrChunk input out) :
    out.length = encqrLength input.length := by
  induction h with
  | nil => rfl
  | @step input g out hne hgroup _ ih =>
    have hg := encqrChunk_length (List.length_take_le _ _) hgroup
    rw [List.length_take] at hg
    rw [List.length_drop, encqrLength] at ih
    rw [List.length_append, hg, ih, encqrLength]
    rcases Nat.lt_or_ge input.length 7 with hlt | hge
    · rw [Nat.min_eq_right (Nat.le_of_lt hlt), Nat.sub_eq_zero_of_le (Nat.le_of_lt hlt), Nat.mod_eq_of_lt hlt,
        Nat.div_eq_of_lt hlt, Nat.add_comm]
      rfl
    · rw [Nat.min_eq_left hge, ← Nat.mod_eq_sub_mod hge]
      have hfull : b2dRom.getD 7 0 = 11 := rfl
      omega

theorem encqr_eq_ok_iff {input out : List Byte} {cap : Option Nat} :
    encqr input cap = .ok out ↔ Converts 7 encqrChunk input out ∧ fits cap out.length = true :=
  convertAll_eq_ok_iff (width := 7) (by omega)

theorem encqr_single {chunk : List Byte} (hne : chunk ≠ []) (hlen : chunk.length ≤ 7) :
    encqr chunk none = .ok (spell (digitsOfChunk chunk)) :=
  (convertAll_single hne hlen).trans (encqrChunk_eq hlen)

/-- R160's example: the value 16706 is 8 * 2025 + 11 * 45 + 11. -/
theorem encqr_65_66 : encqr [65, 66] none = .ok (codes "8BB") := by
  have hdigits : digitsOfChunk [65, 66] = [8, 11, 11] := by decide
  rw [encqr_single (List.cons_ne_nil _ _) (by decide), hdigits]
  rfl

/-- R167's example: leading zero bytes are kept. -/
theorem encqr_zeros : encqr (List.replicate 7 0) none = .ok (codes "00000000000") := by
  have hdigits : digitsOfChunk (List.replicate 7 0) = List.replicate 11 0 := by decide
  rw [encqr_single (by decide) (by decide), hdigits]
  rfl

/-- ENCQR converts every input (R163, R165). -/
theorem exists_converts_encqr (input : List Byte) : ∃ out, Converts 7 encqrChunk input out :=
  exists_converts (by omega) (fun _ hlen => ⟨_, encqrChunk_eq hlen⟩) input

/-! A chunk of DECQR (43_chunked.md R171 to R173, R179). -/

theorem charsToDigits_err {chars : List Byte} {k : ErrKind} (h : charsToDigits chars = .err k) :
    k = .invalidCharacter := by
  induction chars with
  | nil => cases h
  | cons x rest ih =>
    rcases Res.bind_eq_err.1 h with hx | ⟨d, -, h⟩
    · exact c2d_err hx
    · rcases Res.bind_eq_err.1 h with hrest | ⟨ds, -, h⟩
      · exact ih hrest
      · cases h

theorem charsToDigits_spell {digits : List Nat} (h : ∀ d ∈ digits, d ≤ 44) :
    charsToDigits (spell digits) = .ok digits := by
  induction digits with
  | nil => rfl
  | cons d rest ih =>
    obtain ⟨hd, hrest⟩ := List.forall_mem_cons.1 h
    rw [spell, List.map_cons, charsToDigits, c2d_alpha hd, Res.bind_ok, ← spell, ih hrest, Res.bind_ok]

/-- R173: the errors of a chunk. -/
theorem decqrChunk_err {chunk : List Byte} {k : ErrKind} (h : decqrChunk chunk = .err k) :
    k = .invalidCharacter ∨ k = .invalidChunkLength := by
  rcases Res.bind_eq_err.1 h with hchars | ⟨digits, -, h⟩
  · exact .inl (charsToDigits_err hchars)
  · rcases Res.bind_eq_err.1 h with hlen | ⟨nb, -, h⟩
    · exact .inr (d2b_err hlen)
    · cases h

/-- R172: a chunk that converts has a digit count of the table, and gives that many bytes. -/
theorem decqrChunk_length {chunk out : List Byte} (h : decqrChunk chunk = .ok out) :
    d2b chunk.length = .ok out.length := by
  obtain ⟨digits, -, h⟩ := Res.bind_eq_ok.1 h
  obtain ⟨nb, hnb, h⟩ := Res.bind_eq_ok.1 h
  obtain rfl := Res.ok.inj h
  rw [hnb, pushBytes_length, List.length_nil, Nat.add_zero]

theorem decqr_eq_ok_iff {input out : List Byte} {cap : Option Nat} :
    decqr input cap = .ok out ↔ Converts 11 decqrChunk input out ∧ fits cap out.length = true :=
  convertAll_eq_ok_iff (width := 11) (by omega)

theorem converts_decqr_length {input out : List Byte} (h : Converts 11 decqrChunk input out) :
    ∃ n, d2b (input.length % 11) = .ok n ∧ out.length = 7 * (input.length / 11) + n := by
  induction h with
  | nil => exact ⟨0, rfl, rfl⟩
  | @step input g out hne hgroup _ ih =>
    obtain ⟨n, hn, hout⟩ := ih
    have hg := decqrChunk_length hgroup
    rw [List.length_take] at hg
    rw [List.length_drop] at hn hout
    rw [List.length_append, hout]
    rcases Nat.lt_or_ge input.length 11 with hlt | hge
    · rw [Nat.sub_eq_zero_of_le (Nat.le_of_lt hlt)] at hn ⊢
      rw [Nat.min_eq_right (Nat.le_of_lt hlt)] at hg
      have hzero : 0 = n := Res.ok.inj hn
      rw [Nat.mod_eq_of_lt hlt, Nat.div_eq_of_lt hlt]
      exact ⟨_, hg, by omega⟩
    · rw [Nat.min_eq_left hge] at hg
      rw [← Nat.mod_eq_sub_mod hge] at hn
      have hseven : 7 = g.length := Res.ok.inj hg
      exact ⟨n, hn, by omega⟩

/-! DECQR undoes ENCQR (43_chunked.md R180). -/

/-- R164, R171, R177: the digits spell the chunk's value, whose bytes are the chunk. -/
theorem decqrChunk_spell {chunk : List Byte} (hlen : chunk.length ≤ 7) :
    decqrChunk (spell (digitsOfChunk chunk)) = .ok chunk := by
  rw [decqrChunk, charsToDigits_spell (digitsOfChunk_le chunk), Res.bind_ok, spell_length, digitsOfChunk_length,
    d2b_b2dRom _ hlen, Res.bind_ok, bigEndian_digitsOfChunk hlen, pushBytes_bigEndian, List.append_nil]

/-- A chunk's characters fill DECQR's width exactly when its bytes fill ENCQR's. -/
theorem b2dRom_bounds : ∀ n ≤ 7, n ≠ 0 → b2dRom.getD n 0 ≠ 0 ∧ b2dRom.getD n 0 ≤ 11 ∧
    (b2dRom.getD n 0 < 11 → n < 7) := by decide

theorem converts_decqr_of_encqr {x s : List Byte} (h : Converts 7 encqrChunk x s) : Converts 11 decqrChunk s x := by
  induction h with
  | nil => exact .nil
  | @step x g s hne hgroup hrest ih =>
    have hlen : (x.take 7).length ≤ 7 := List.length_take_le _ _
    have hpos := List.length_pos_iff.2 hne
    have hg := encqrChunk_length hlen hgroup
    obtain ⟨hzero, hle, hfull⟩ := b2dRom_bounds _ hlen (by rw [List.length_take]; omega)
    rw [← hg] at hzero hle hfull
    rw [← List.take_append_drop 7 x]
    refine .cons (fun hnil => hzero (by rw [hnil]; rfl)) hle (fun hlt => ?_) ?_ ih
    · have hlast := hfull hlt
      rw [List.length_take] at hlast
      rw [List.drop_of_length_le (by omega)] at hrest
      exact hrest.eq_nil
    · obtain rfl := Res.ok.inj ((encqrChunk_eq hlen).symm.trans hgroup)
      exact decqrChunk_spell hlen

theorem decqr_of_encqr {x s : List Byte} {cap cap' : Option Nat} (h : encqr x cap = .ok s)
    (hfits : fits cap' x.length = true) : decqr s cap' = .ok x := by
  obtain ⟨hconverts, -⟩ := encqr_eq_ok_iff.1 h
  exact decqr_eq_ok_iff.2 ⟨converts_decqr_of_encqr hconverts, hfits⟩

/-! The passes of the two commands (43_chunked.md R162, R174). -/

theorem Res.bind_assoc {α β γ : Type} (r : Res α) (f : α → Res β) (f' : β → Res γ) :
    (r.bind f).bind f' = r.bind fun x => (f x).bind f' := by
  cases r <;> rfl

/-- Inside a chunk: the pass from `t` has folded these digits of a base into ACC, one for each input byte read, and
has emitted nothing. -/
structure Folded (base : Nat) (t : State) (digits : List Nat) (u : State) : Prop where
  engineOnly : EngineOnly t u
  obuf : u.obuf = t.obuf
  inPos : u.dp.inPos.toNat = t.dp.inPos.toNat + digits.length
  outPos : u.dp.outPos = t.dp.outPos
  acc : u.dp.acc.toNat = bigEndian base digits
  digits_lt : ∀ d ∈ digits, d < base

/-- The next byte of the chunk. -/
theorem Folded.peek {base : Nat} {t u : State} {digits : List Nat} (h : Folded base t digits u) :
    u.peek 0 = t.peek digits.length := by
  rw [State.peek, State.peek, h.inPos, h.engineOnly]
  rfl

/-- One more digit: neither IN_POS nor ACC wraps (10_state.md R33, 43_chunked.md R164, R176). -/
theorem Folded.step {base : Nat} {t u : State} {digits : List Nat} (h : Folded base t digits u) {d : Nat}
    (hd : d < base) (hroom : t.dp.inPos.toNat + digits.length < 2 ^ 16)
    (hacc : base ^ (digits.length + 1) ≤ 2 ^ 64) {dp : Datapath} (hin : dp.inPos = u.dp.inPos + 1)
    (hout : dp.outPos = u.dp.outPos) (hval : dp.acc.toNat = (u.dp.acc.toNat * base + d) % 2 ^ 64) :
    Folded base t (digits ++ [d]) { u with dp := dp } := by
  have hdigits : ∀ d' ∈ digits ++ [d], d' < base := fun d' hd' => by
    rcases List.mem_append.1 hd' with hmem | hmem
    · exact h.digits_lt d' hmem
    · rwa [List.mem_singleton.1 hmem]
  refine ⟨h.engineOnly.trans (.of_dp u dp), h.obuf, ?_, hout.trans h.outPos, ?_, hdigits⟩
  · have hpos := h.inPos
    rw [List.length_append, List.length_singleton]
    change dp.inPos.toNat = _
    rw [hin]
    bv_omega
  · have hlt := bigEndian_lt hdigits
    rw [List.length_append, List.length_singleton, bigEndian_append, ← h.acc] at hlt
    rw [bigEndian_append, ← h.acc]
    exact hval.trans (Nat.mod_eq_of_lt (Nat.lt_of_lt_of_le hlt hacc))

/-- A pass that has folded its whole group has consumed it. -/
theorem Folded.consumed {base width : Nat} {t u : State} {digits : List Nat} (h : Folded base t digits u)
    (hleft : t.dp.inPos.toNat < t.inLen.toNat) (hlen : digits.length = min width t.remaining) :
    Consumed width t u where
  engineOnly := h.engineOnly
  obuf := h.obuf
  outPos := h.outPos
  inPos := by
    rw [h.inPos, hlen, State.remaining]
    omega

theorem Consumed.withDp {width : Nat} {t u : State} (h : Consumed width t u) {dp : Datapath}
    (hin : dp.inPos = u.dp.inPos) (hout : dp.outPos = u.dp.outPos) : Consumed width t { u with dp := dp } where
  engineOnly := h.engineOnly.trans (.of_dp u dp)
  obuf := h.obuf
  inPos := (congrArg BitVec.toNat hin).trans h.inPos
  outPos := hout.trans h.outPos

theorem Consumed.pushDigits {width : Nat} {t u : State} (h : Consumed width t u) (k : Nat) :
    Consumed width t (State.pushDigits k u) := by
  induction k generalizing u with
  | zero => exact h
  | succ k ih => exact ih (h.withDp rfl rfl)

theorem Consumed.loadNb {width : Nat} {t u : State} (h : Consumed width t u) (n : Nat) :
    Consumed width t (u.loadNb n) :=
  h.withDp rfl rfl

theorem Consumed.emptyLifo {width : Nat} {t u : State} (h : Consumed width t u) : Consumed width t u.emptyLifo :=
  h.withDp rfl rfl

theorem Consumed.pushBytes {width : Nat} {t u : State} (h : Consumed width t u) (n : Nat) :
    Consumed width t (State.pushBytes n u) := by
  induction n generalizing u with
  | zero => exact h
  | succ n ih => exact ih (h.withDp rfl rfl)

/-- A pass of ENCQR has folded the bytes of a chunk so far; NB counts them, and DIGBUF is empty (R162). -/
structure FoldedBytes (t : State) (digits : List Nat) (u : State) : Prop extends Folded 256 t digits u where
  nb : u.dp.nb.toNat = digits.length
  nd : u.dp.nd.toNat = 0

theorem foldedBytes_clearChunk (t : State) : FoldedBytes t [] t.clearChunk :=
  ⟨⟨rfl, rfl, rfl, rfl, rfl, by simp⟩, rfl, rfl⟩

theorem FoldedBytes.foldByte {t u : State} {digits : List Nat} (h : FoldedBytes t digits u)
    (hlen : digits.length < 7) (hroom : t.dp.inPos.toNat + digits.length < 2 ^ 16) :
    FoldedBytes t (digits ++ [(t.peek digits.length).toNat]) u.foldByte where
  toFolded := by
    refine h.toFolded.step (t.peek digits.length).isLt hroom ?_ rfl rfl ?_
    · exact Nat.le_trans (Nat.pow_le_pow_right (n := 256) (by omega) hlen) (by decide)
    · rw [← h.peek]
      simp [widen_toNat]
  nb := by
    have hnb := h.nb
    rw [State.foldByte_dp, List.length_append, List.length_singleton]
    bv_omega
  nd := h.nd

theorem FoldedBytes.foldBytes (n : Nat) {t u : State} {digits : List Nat} (h : FoldedBytes t digits u)
    (hlen : digits.length + n ≤ 7) (hroom : t.dp.inPos.toNat + digits.length + n ≤ 2 ^ 16) :
    FoldedBytes t (digits ++ values ((List.range' digits.length n).map t.peek)) (State.foldBytes n u) := by
  induction n generalizing u digits with
  | zero => exact (List.append_nil digits).symm ▸ h
  | succ n ih =>
    have hnext := ih (h.foldByte (by omega) (by omega)) (by rw [List.length_append, List.length_singleton]; omega)
      (by rw [List.length_append, List.length_singleton]; omega)
    rw [List.append_assoc, List.length_append] at hnext
    exact hnext

/-- A push leaves the entries of DIGBUF below ND. -/
theorem digitsDown_pushDigit {s : State} {k : Nat} (hk : k ≤ s.dp.nd.toNat) :
    s.pushDigit.digitsDown k = s.digitsDown k := by
  induction k with
  | zero => rfl
  | succ k ih => rw [State.digitsDown, State.digitsDown, pushDigit_digit, if_neg (by omega), ih (by omega)]

theorem pushDigit_digit_top {s : State} (hroom : s.dp.nd.toNat < 11) :
    s.pushDigit.digit s.dp.nd.toNat = s.dp.acc.toNat % 45 := by
  rw [pushDigit_digit, if_pos rfl, if_pos hroom, BitVec.toNat_setWidth, BitVec.toNat_umod]
  have hdigit : s.dp.acc.toNat % 45 < 45 := Nat.mod_lt _ (by omega)
  exact Nat.mod_eq_of_lt (Nat.lt_trans hdigit (by decide))

/-- R161, R162: DIGBUF read downwards gives the digits pushed on it, most significant first. -/
theorem digitsDown_pushDigits (k : Nat) {s : State} (hroom : s.dp.nd.toNat + k ≤ 11) :
    (State.pushDigits k s).digitsDown (s.dp.nd.toNat + k) =
      (lowDigits k s.dp.acc.toNat).reverse ++ s.digitsDown s.dp.nd.toNat := by
  induction k generalizing s with
  | zero => rfl
  | succ k ih =>
    have hnd : s.pushDigit.dp.nd.toNat = s.dp.nd.toNat + 1 := by
      rw [State.pushDigit_dp]
      bv_omega
    have hacc : s.pushDigit.dp.acc.toNat = s.dp.acc.toNat / 45 := BitVec.toNat_udiv
    have hrest := ih (s := s.pushDigit) (by omega)
    rw [hnd, hacc, State.digitsDown, pushDigit_digit_top (by omega), digitsDown_pushDigit (Nat.le_refl _)] at hrest
    rw [State.pushDigits, ← Nat.add_assoc, Nat.add_right_comm, hrest, lowDigits, List.reverse_cons, List.append_cons]

/-- The input bytes of a pass of this width stand in IBUF, which holds at most 2^16 bytes (00_scope.md R8). -/
theorem inPos_add_min_le {t : State} (hleft : t.dp.inPos.toNat < t.inLen.toNat)
    (hfit : t.inLen.toNat ≤ t.ibufSz.bytes) (width : Nat) :
    t.dp.inPos.toNat + min width t.remaining ≤ 2 ^ 16 := by
  obtain ⟨-, hsize, -⟩ := bytes_bounds t.ibufSz
  rw [State.remaining]
  omega

/-- R161, R162: a pass of ENCQR takes seven bytes, or those that are left. -/
theorem encqr_runsGroups : RunsGroups .encqr 7 encqrChunk := by
  refine ⟨encqrPass, fun _ => rfl, fun t hleft hfit => ?_⟩
  have hread := (foldedBytes_clearChunk t).foldBytes (min 7 t.remaining)
    (by rw [List.length_nil]; omega) (inPos_add_min_le hleft hfit 7)
  rw [List.nil_append, List.length_nil, ← List.range_eq_range', ← unread_take] at hread
  generalize hu : State.foldBytes (min 7 t.remaining) t.clearChunk = u at hread
  generalize hchunk : (unread t).take 7 = chunk at hread
  have hlen : chunk.length = min 7 t.remaining := by rw [← hchunk, List.length_take, unread_length]
  have hnb : u.dp.nb.toNat = chunk.length := hread.nb.trans (List.length_map _)
  have hmoved : Consumed 7 t u := hread.toFolded.consumed hleft ((List.length_map _).trans hlen)
  rw [encqrChunk, encqrPass]
  dsimp only
  rw [hu, hnb]
  refine .bind_same fun k hk => ?_
  have hdown := digitsDown_pushDigits k (s := u) (by simpa [hread.nd] using le_of_b2d hk)
  rw [hread.nd, hread.acc, Nat.zero_add, State.digitsDown, List.append_nil] at hdown
  rw [hdown]
  exact .emit (hmoved.pushDigits k)

/-- A pass of DECQR has folded the characters of a chunk so far; ND counts them, and LIFO is empty (R174). -/
structure FoldedChars (t : State) (digits : List Nat) (u : State) : Prop extends Folded 45 t digits u where
  nd : u.dp.nd.toNat = digits.length
  lifoDepth : u.dp.lifoDepth.toNat = 0

theorem foldedChars_clearChunk (t : State) : FoldedChars t [] t.clearChunk :=
  ⟨⟨rfl, rfl, rfl, rfl, rfl, by simp⟩, rfl, rfl⟩

/-- The next character as C2D gives it, or its error. -/
theorem PassRuns.foldChar {width : Nat} {t u : State} {digits : List Nat} (h : FoldedChars t digits u)
    (hlen : digits.length < 11) (hroom : t.dp.inPos.toNat + digits.length < 2 ^ 16)
    {f : Nat → Res (List Byte)} {f' : State → Res State}
    (hf : ∀ d v, FoldedChars t (digits ++ [d]) v → PassRuns width t (f d) (f' v)) :
    PassRuns width t ((c2d (t.peek digits.length).toNat).bind f) (u.foldChar.bind f') := by
  rw [State.foldChar, Res.bind_assoc, h.peek]
  refine .bind_same fun d hd => ?_
  have hd' := le_of_c2d hd
  refine hf d _ ⟨h.toFolded.step (d := d) (by omega) hroom ?_ rfl rfl ?_, ?_, h.lifoDepth⟩
  · exact Nat.le_trans (Nat.pow_le_pow_right (n := 45) (by omega) hlen) (by decide)
  · simp
  · have hnd := h.nd
    rw [List.length_append, List.length_singleton]
    simp only [State.consume_dp]
    bv_omega

/-- R171, R173: the characters in order, or the first invalid one's error. -/
theorem PassRuns.foldChars {width : Nat} (n : Nat) {t u : State} {digits : List Nat} (h : FoldedChars t digits u)
    (hlen : digits.length + n ≤ 11) (hroom : t.dp.inPos.toNat + digits.length + n ≤ 2 ^ 16)
    {f : List Nat → Res (List Byte)} {f' : State → Res State}
    (hf : ∀ rest v, rest.length = n → FoldedChars t (digits ++ rest) v → PassRuns width t (f rest) (f' v)) :
    PassRuns width t ((charsToDigits ((List.range' digits.length n).map t.peek)).bind f)
      ((State.foldChars n u).bind f') := by
  induction n generalizing u digits f with
  | zero => exact hf [] u rfl ((List.append_nil digits).symm ▸ h)
  | succ n ih =>
    rw [List.range'_succ, List.map_cons, charsToDigits, State.foldChars, Res.bind_assoc, Res.bind_assoc]
    refine .foldChar h (by omega) (by omega) fun d v hv => ?_
    have hnext := ih hv (f := fun rest => f (d :: rest)) (by rw [List.length_append, List.length_singleton]; omega)
      (by rw [List.length_append, List.length_singleton]; omega)
      fun rest w hrest hw => hf (d :: rest) w (congrArg (· + 1) hrest) (by rwa [List.append_cons])
    rw [Res.bind_assoc]
    rw [List.length_append] at hnext
    exact hnext

/-- A push leaves the entries of LIFO below its depth. -/
theorem lifoDown_pushByte {s : State} {n : Nat} (hn : n ≤ s.dp.lifoDepth.toNat) :
    s.pushByte.lifoDown n = s.lifoDown n := by
  induction n with
  | zero => rfl
  | succ n ih => rw [State.lifoDown, State.lifoDown, pushByte_lifoEntry, if_neg (by omega), ih (by omega)]

theorem pushByte_lifoEntry_top {s : State} (hroom : s.dp.lifoDepth.toNat < 7) :
    s.pushByte.lifoEntry s.dp.lifoDepth.toNat = BitVec.ofNat 8 (s.dp.acc.toNat % 256) := by
  rw [pushByte_lifoEntry, if_pos rfl, if_pos hroom]
  exact lowByte_eq rfl

/-- R174, R177: LIFO pops the bytes pushed on it, last in first out. -/
theorem lifoDown_pushBytes (n : Nat) {s : State} (hroom : s.dp.lifoDepth.toNat + n ≤ 7) :
    (State.pushBytes n s).lifoDown (State.pushBytes n s).dp.lifoDepth.toNat =
      pushBytes n s.dp.acc.toNat (s.lifoDown s.dp.lifoDepth.toNat) := by
  induction n generalizing s with
  | zero => rfl
  | succ n ih =>
    have hdepth : s.pushByte.dp.lifoDepth.toNat = s.dp.lifoDepth.toNat + 1 := by
      rw [State.pushByte_dp]
      bv_omega
    have hacc : s.pushByte.dp.acc.toNat = s.dp.acc.toNat / 256 := by
      rw [State.pushByte_dp, BitVec.toNat_ushiftRight, Nat.shiftRight_eq_div_pow]
    rw [State.pushBytes, ih (by omega), hdepth, hacc, State.lifoDown, pushByte_lifoEntry_top (by omega),
      lifoDown_pushByte (Nat.le_refl _), pushBytes]

/-- R171, R174: a pass of DECQR takes eleven characters, or those that are left. -/
theorem decqr_runsGroups : RunsGroups .decqr 11 decqrChunk := by
  refine ⟨decqrPass, fun _ => rfl, fun t hleft hfit => ?_⟩
  have hlen : ((unread t).take 11).length = min 11 t.remaining := by rw [List.length_take, unread_length]
  rw [decqrChunk, decqrPass, hlen, unread_take, List.range_eq_range']
  refine .foldChars _ (foldedChars_clearChunk t) (by rw [List.length_nil]; omega)
    (inPos_add_min_le hleft hfit 11) fun digits u hcount hu => ?_
  rw [List.nil_append] at hu
  have hmoved : Consumed 11 t u := hu.toFolded.consumed hleft hcount
  rw [hu.nd, hcount]
  refine .bind_same fun n hn => ?_
  have hn' := byteCount_le_of_d2b hn
  dsimp only
  have hnb : (u.loadNb n).dp.nb.toNat = n := by
    rw [State.loadNb_dp, BitVec.toNat_ofNat]
    omega
  have hdown := lifoDown_pushBytes n (s := u.loadNb n) (by simp [hu.lifoDepth, hn'])
  rw [hnb, hdown]
  simp only [State.loadNb_dp, hu.lifoDepth, hu.acc]
  exact .ok ((hmoved.loadNb n).pushBytes n).emptyLifo

/-! The contracts and the properties of the codec (43_chunked.md R160, R167, R170, R172, R179, R180). -/

/-- Settles O16: the engine's passes convert ENCQR's chunks, and the output's length alone decides the overflow. -/
theorem encqrMeetsItsContract : Obligations.EncqrMeetsItsContract := by
  refine ⟨by decide, fun s _ hlong => encqr_runsGroups.failsWith_range hlong, fun s hs hfit hover => ?_,
    fun s hs hfit hroom => ?_, encqr_65_66⟩
  · obtain ⟨out, hout⟩ := exists_converts_encqr s.input
    have herr : encqr s.input (some s.obufSz.bytes) = .err .outputOverflow :=
      convertAll_overflow (width := 7) hout (by omega)
        (by rw [fits_some, converts_encqr_length hout, input_length]; exact Nat.not_le.2 hover)
    exact ⟨herr, encqr_runsGroups.failsWith hs hfit herr⟩
  · obtain ⟨out, hout⟩ := exists_converts_encqr s.input
    have hok : encqr s.input (some s.obufSz.bytes) = .ok out :=
      encqr_eq_ok_iff.2 ⟨hout, by rwa [fits_some, converts_encqr_length hout, input_length]⟩
    exact ⟨out, hok, encqr_runsGroups.succeedsWith hs hfit hok⟩

/-- Settles O17: the engine's passes convert DECQR's chunks, and the errors are a chunk's or the capacity's. -/
theorem decqrMeetsItsContract : Obligations.DecqrMeetsItsContract := by
  refine ⟨by decide, fun s _ hlong => decqr_runsGroups.failsWith_range hlong, fun s k hs hfit hk => ⟨?_, ?_⟩,
    fun s out hs hfit hout => decqr_runsGroups.succeedsWith hs hfit hout, by decide⟩
  · rcases convertAll_err hk with rfl | ⟨g, hg⟩
    · exact .inr (.inr rfl)
    · exact (decqrChunk_err hg).imp_right .inl
  · exact decqr_runsGroups.failsWith hs hfit hk

/-- Settles O33: the digits of a chunk spell its value, so DECQR reads back each chunk that ENCQR gives; the engine
meets both functions. -/
theorem chunkedRoundTrip : Obligations.ChunkedRoundTrip :=
  ⟨fun _ _ h => decqr_of_encqr h rfl, fun _ _ _ _ h hlen => decqr_of_encqr h ((fits_some _ _).2 hlen),
    encqr_runsGroups.roundTrip decqr_runsGroups fun _ _ _ _ h hlen => decqr_of_encqr h ((fits_some _ _).2 hlen)⟩

/-- Settles O28: ENCQR converts every chunk, and its characters are counted along the chunks. -/
theorem encqrOutputLength : Obligations.EncqrOutputLength := by
  refine ⟨fun input => ?_, encqr_zeros, rfl, fun _ hs hlen => encqr_runsGroups.of_empty hs hlen⟩
  obtain ⟨out, hout⟩ := exists_converts_encqr input
  exact ⟨out, encqr_eq_ok_iff.2 ⟨hout, rfl⟩, converts_encqr_length hout⟩

/-- Settles O32, by induction on the chunks that convert. -/
theorem decqrLengths : Obligations.DecqrLengths :=
  ⟨fun _ _ h => converts_decqr_length (decqr_eq_ok_iff.1 h).1, rfl,
    fun _ hs hlen => decqr_runsGroups.of_empty hs hlen⟩

end Sys2Proof.Proofs
end

section
/-! SUPPORT. The proofs about the hazards (70_reset_and_hazards.md): the host's writes and reads while a command is
accepted and not yet run. -/
namespace Sys2Proof.Proofs

open Sys2Proof.Machine Sys2Proof.Claims

/-! Writes while BUSY = 1 (70_reset_and_hazards.md R230). -/

/-- R230: a word written to IN_LEN while BUSY = 1 is dropped. -/
theorem busAccess_wr_inLen_busy {s : State} (d : Word) (hbusy : s.status.busy = true) :
    s.busAccess (wr 8 d) = s.dropWrite.respond okWrite := by
  have hx : s.target (8 : BitVec 18).toNat = some .inLen := target_register s (by decide)
  rw [busAccess_wr_of_target d (by decide) hx, State.writeEffect, guarded_busy _ hbusy]

/-- Settles O42: each of the offsets reaches a target whose write is dropped. -/
theorem busyWritesAreDropped : Obligations.BusyWritesAreDropped := by
  intro s A d hbusy haligned hA
  rcases hA with hA | hA | ⟨hlow, hhigh⟩
  · obtain rfl : A = 0 := BitVec.eq_of_toNat_eq hA
    exact busAccess_wr_cmd_busy d hbusy
  · obtain rfl : A = 8 := BitVec.eq_of_toNat_eq hA
    exact busAccess_wr_inLen_busy d hbusy
  · exact busAccess_wr_ibufWord_busy d haligned (target_ibufWord s hlow hhigh) hbusy

/-! Reads while BUSY = 1 (70_reset_and_hazards.md R231, R232). -/

/-- R22, R57: a host register is read whatever BUSY is. -/
theorem readTarget_register {s : State} {offset : Nat} {x : Target} (hx : registerAt offset = some x) :
    s.readTarget x = s.respond (okRead (s.readValue x)) := by
  unfold registerAt at hx
  split at hx <;> cases hx <;> rfl

/-- R22, R57: a read of a host register answers its value and changes nothing else. -/
theorem onlyResponds_rd_register (s : State) {A : BitVec 18} {x : Target} (haligned : A.toNat % 4 = 0)
    (hlow : A.toNat < ibufWindow) (hx : registerAt A.toNat = some x) :
    OnlyResponds { code := .ok, data := some (s.readValue x) } s (s.busAccess (rd A)) := by
  rw [busAccess_rd_of_target haligned ((target_register s hlow).trans hx), readTarget_register hx]
  rfl

theorem flagBit_eq (b : Bool) (weight : Nat) : flagBit b weight = weight * b.toNat := by
  cases b <;> simp [flagBit]

/-- R24: BUSY, DONE and ERR are the three low bits of STATUS, below the other fields. -/
theorem status_word_low_bits (f : Status) :
    f.word.getLsbD 0 = f.busy ∧ f.word.getLsbD 1 = f.done ∧ f.word.getLsbD 2 = f.err := by
  have hbusy := f.busy.toNat_le
  have hdone := f.done.toNat_le
  have herr := f.err.toNat_le
  have hbit {k : Nat} {b : Bool} (hk : k = b.toNat) : decide (k = 1) = b := by
    simp [hk, Bool.toNat_eq_one]
  simp only [Status.word, BitVec.getLsbD_ofNat, Nat.testBit_eq_decide_div_mod_eq, flagBit_eq, Nat.reduceLT,
    decide_true, Bool.true_and]
  exact ⟨hbit (by omega), hbit (by omega), hbit (by omega)⟩

/-- Settles O43: the invariant gives OUT_LEN, RESULT, DONE and ERR while BUSY = 1; OBUF answers a free word. -/
theorem busyReads : Obligations.BusyReads := by
  intro s ⟨hinv, hbusy⟩
  obtain ⟨houtLen, hresult⟩ := hinv.busy_results hbusy
  obtain ⟨hdone, herr⟩ := hinv.status_legal.busy_alone hbusy
  refine ⟨?_, ?_, ⟨s.status.word, ?_, ?_⟩, fun A haligned hlow hhigh => ?_⟩
  · rw [← houtLen]
    exact onlyResponds_rd_register s (x := .outLen) (by decide) (by decide) rfl
  · rw [← hresult]
    exact onlyResponds_rd_register s (x := .result) (by decide) (by decide) rfl
  · exact onlyResponds_rd_register s (x := .status) (by decide) (by decide) rfl
  · simpa [hbusy, hdone, herr] using status_word_low_bits s.status
  · rw [busAccess_rd_of_target haligned (target_obufWord s hlow hhigh), readTarget_obufWord_busy _ hbusy]
    exact ⟨_, rfl⟩

end Sys2Proof.Proofs
end

section
/-! SUPPORT. The proofs about a command from its word to its end: encoding and decoding, what a command can do, the
pure functions on inputs in pieces, the steps and the invariant, and the host's programs. -/
namespace Sys2Proof.Proofs

open Sys2Proof.Machine Sys2Proof.Claims

/-! Commands and their words, both ways (30_encoding.md R73, R76, R80). -/

/-- R80: the fields of an encoded command, whichever it is. -/
theorem encodedFields (i : Instr) : Laws.EncodedFields.Statement i :=
  match i with
  | .nop => Laws.EncodedFields.nop
  | .enc45 => Laws.EncodedFields.enc45
  | .dec45 => Laws.EncodedFields.dec45
  | .encqr => Laws.EncodedFields.encqr
  | .decqr => Laws.EncodedFields.decqr
  | .d2c imm => Laws.EncodedFields.d2c imm
  | .c2d imm => Laws.EncodedFields.c2d imm
  | .b2d imm => Laws.EncodedFields.b2d imm
  | .d2b imm => Laws.EncodedFields.d2b imm

/-- Settles O2: an encoded command holds the OP and IMM that the decoder looks for, with RSV = 0. -/
theorem decodeEncodeAgree : Obligations.DecodeEncodeAgree :=
  fun i hwf => decode_eq_legal_iff.2 (encodedFields i hwf)

/-- R73: a command can be written down when its immediate has 16 bits. -/
theorem wf_iff (i : Instr) : i.wf = true ↔ immOf i ≤ 65535 := by
  cases i <;> simp [Instr.wf, immFits, immOf]

/-- R70: a word is its three fields, side by side. -/
theorem word_toNat_eq_fields (w : Word) : w.toNat = immField w * 65536 + rsvField w * 16 + opField w := by
  unfold immField rsvField opField
  omega

/-- Settles O3: with RSV = 0 a word is its IMM and its OP, which encoding puts back. -/
theorem encodeDecodeAgree : Obligations.EncodeDecodeAgree := by
  intro w i h
  obtain ⟨hop, hrsv, himm⟩ := decode_eq_legal_iff.1 h
  have hw := w.isLt
  have hfields := word_toNat_eq_fields w
  rw [hop, hrsv, himm] at hfields
  refine ⟨(wf_iff i).2 (by omega), BitVec.eq_of_toNat_eq ?_⟩
  rw [encode, BitVec.toNat_ofNat]
  omega

/-! What a command can do (40_control.md R94; 60_exceptions.md R196, R197). -/

/-- The ways in which a command ends, by its class. -/
inductive CommandEnds (s : State) : Instr → State → Prop where
  | nop : CommandEnds s .nop s.complete
  | answer {i : Instr} (hi : i.commandClass = .lookup) (v : Byte) : CommandEnds s i (s.completeLookup v)
  | lookupError {i : Instr} (hi : i.commandClass = .lookup) (k : ErrKind) : CommandEnds s i (s.raise k)
  | output {i : Instr} (hi : i.commandClass = .buffer) {u : State} (hu : EngineOnly s u) :
      CommandEnds s i u.completeBuffer
  | bufferError {i : Instr} (hi : i.commandClass = .buffer) (k : ErrKind) : CommandEnds s i (s.raiseBuffer k)

theorem lookup_commandEnds {i : Instr} (hi : i.commandClass = .lookup) {r : Res Byte} {s t : State}
    (h : lookup r s = .next t) : CommandEnds s i t := by
  rcases lookup_cases h with ⟨v, -, rfl⟩ | ⟨k, -, rfl⟩
  · exact .answer hi v
  · exact .lookupError hi k

theorem runBuffer_commandEnds {i : Instr} (hi : i.commandClass = .buffer) {pass : State → Res State}
    (hpass : ∀ {u v}, pass u = .ok v → EngineOnly u v) {s t : State} (h : runBuffer pass s = .next t) :
    CommandEnds s i t := by
  rcases runBuffer_cases h with ⟨-, rfl⟩ | ⟨-, u, hu, rfl⟩ | ⟨-, k, -, rfl⟩
  · exact .bufferError hi _
  · exact .output hi (groupLoop_engineOnly hpass _ hu)
  · exact .bufferError hi k

/-- Whatever a command does, it ends in one of these ways. -/
theorem exec_commandEnds {i : Instr} {s t : State} (h : exec i s = .next t) : CommandEnds s i t := by
  cases i with
  | nop =>
    obtain rfl := Host.Outcome.next.inj h
    exact .nop
  | enc45 => exact runBuffer_commandEnds rfl enc45Pass_engineOnly h
  | dec45 => exact runBuffer_commandEnds rfl dec45Pass_engineOnly h
  | encqr => exact runBuffer_commandEnds rfl encqrPass_engineOnly h
  | decqr => exact runBuffer_commandEnds rfl decqrPass_engineOnly h
  | d2c | c2d | b2d | d2b => exact lookup_commandEnds rfl h

/-- Every command has a next state. -/
theorem exec_next (i : Instr) (s : State) : ∃ t, exec i s = .next t := by
  cases i with
  | nop => exact ⟨_, rfl⟩
  | enc45 | dec45 | encqr | decqr => exact runBuffer_next _ s
  | d2c | c2d | b2d | d2b => exact lookup_next _ s

section
variable {i : Instr} {s t : State}

theorem CommandEnds.keepsHostSide (h : CommandEnds s i t) : KeepsHostSide s t := by
  cases h with
  | output _ hu => exact completeBuffer_keepsHostSide hu
  | nop | answer | lookupError | bufferError => exact ⟨rfl, rfl, rfl, rfl, fun _ => rfl, rfl, rfl, rfl, rfl⟩

/-- The flags are those of a completion or of an error termination (10_state.md R32). -/
theorem CommandEnds.status (h : CommandEnds s i t) :
    t.status = s.status.completed ∨ ∃ k, t.status = s.status.failed k ∧ t.outLen = 0 ∧ t.result = 0 := by
  cases h with
  | output _ hu =>
    have hstatus := engineOnly_status hu
    exact .inl (congrArg Status.completed hstatus)
  | nop | answer => exact .inl rfl
  | lookupError _ k | bufferError _ k => exact .inr ⟨k, rfl, rfl, rfl⟩

theorem CommandEnds.dropped (h : CommandEnds s i t) : t.status.dropped = s.status.dropped := by
  rcases h.status with hstatus | ⟨k, hstatus, -⟩ <;> rw [hstatus] <;> rfl

/-- A command that is not a buffer command changes no byte of OBUF. -/
theorem CommandEnds.keepsObuf (h : CommandEnds s i t) (hi : i.commandClass ≠ .buffer) : KeepsObuf s t := by
  cases h with
  | nop | answer | lookupError => exact fun _ => rfl
  | output hbuffer | bufferError hbuffer => exact absurd hbuffer hi

end

/-- Settles O13: a command of these two classes ends with a completion that keeps OUT_LEN, or with an error. -/
theorem nopAndLookupFrame : Obligations.NopAndLookupFrame := by
  intro i s t hi h
  have hend := exec_commandEnds h
  refine ⟨hend.keepsHostSide, hend.keepsObuf hi, ?_⟩
  cases hend with
  | nop | answer => exact ⟨rfl, fun _ => ⟨rfl, rfl, rfl⟩, fun hdone => Bool.noConfusion hdone⟩
  | lookupError => exact ⟨rfl, fun hdone => Bool.noConfusion hdone, fun _ => ⟨rfl, rfl⟩⟩
  | output hbuffer | bufferError hbuffer => exact absurd hbuffer hi

theorem CommandEnds.obufUnspecified {i : Instr} {s t : State} (h : CommandEnds s i t)
    (hi : i.commandClass = .buffer) (hdone : t.status.done = false) : ObufUnspecified t := by
  cases h with
  | nop => cases hi
  | answer hlookup | lookupError hlookup => cases hlookup.symm.trans hi
  | output => cases hdone
  | bufferError => exact fun _ => rfl

/-- Settles O48: an accepted command has ERR = 0, so ERR = 1 at its end is an error termination. -/
theorem errorTermination : Obligations.ErrorTermination := by
  intro i s t hs h herr
  have hend := exec_commandEnds h
  rcases hend.status with hdone | ⟨k, hfailed, hlen, hresult⟩
  · obtain ⟨hnoerr, -⟩ := cleared_of_accepted hs
    rw [hdone, Status.completed_err, hnoerr] at herr
    cases herr
  · have hdone : t.status.done = false := congrArg Status.done hfailed
    have hbusy : t.status.busy = false := congrArg Status.busy hfailed
    exact ⟨⟨k, hfailed, hlen, hresult⟩, by simp [State.phase, hbusy], hdone, hend.dropped,
      hend.keepsHostSide, fun hi => hend.obufUnspecified hi hdone, fun hi => hend.keepsObuf hi⟩

/-! The output of a buffer command, group by group (40_control.md R93, R98). -/

/-- The pure function of a buffer command, and the engine's run of it, have the same groups. -/
theorem exists_runsGroups {i : Instr} {f : List Byte → Option Nat → Res (List Byte)} (h : contractOf i = some f) :
    ∃ width group, 0 < width ∧ RunsGroups i width group ∧ f = convertAll width group := by
  cases i with
  | enc45 => exact ⟨2, _, by omega, enc45_runsGroups, (Option.some.inj h).symm⟩
  | dec45 => exact ⟨3, _, by omega, dec45_runsGroups, (Option.some.inj h).symm⟩
  | encqr => exact ⟨7, _, by omega, encqr_runsGroups, (Option.some.inj h).symm⟩
  | decqr => exact ⟨11, _, by omega, decqr_runsGroups, (Option.some.inj h).symm⟩
  | nop | d2c | c2d | b2d | d2b => cases h

theorem exists_contract {i : Instr} (hi : i.commandClass = .buffer) : ∃ f, contractOf i = some f := by
  cases i with
  | enc45 | dec45 | encqr | decqr => exact ⟨_, rfl⟩
  | nop | d2c | c2d | b2d | d2b => cases hi

/-- A pass that goes on has emitted a group that fits. -/
theorem PassRuns.of_ok {width : Nat} {t v : State} {answer : Res (List Byte)}
    (h : PassRuns width t answer (.ok v)) :
    ∃ u g, Consumed width t u ∧ u.dp.outPos.toNat + g.length ≤ u.obufSz.bytes ∧ v = u.emitAll g := by
  generalize hr : (Res.ok v : Res State) = r at h
  cases h with
  | err k => cases hr
  | @ok g u hu =>
    rcases emitGroup_cases hr.symm with ⟨hroom, hv⟩ | ⟨-, hv⟩
    · exact ⟨u, g, hu, hroom, Res.ok.inj hv⟩
    · cases hv

/-- What consuming and emitting a group that fits keeps, the loop over the groups keeps. -/
theorem groupLoop_keeps_emission {width : Nat} {group : List Byte → Res (List Byte)} {pass : State → Res State}
    (hpass : ∀ t, t.dp.inPos.toNat < t.inLen.toNat → t.inLen.toNat ≤ t.ibufSz.bytes →
      PassRuns width t (group ((unread t).take width)) (pass t)) {P : State → Prop}
    (hP : ∀ t u g, P t → Consumed width t u → u.dp.outPos.toNat + g.length ≤ u.obufSz.bytes → P (u.emitAll g))
    (n : Nat) {s t : State} (hfit : s.inLen.toNat ≤ s.ibufSz.bytes) (hs : P s)
    (h : groupLoop pass n s = .ok t) : P t := by
  induction n generalizing s with
  | zero =>
    obtain rfl := Res.ok.inj h
    exact hs
  | succ n ih =>
    unfold groupLoop at h
    split at h
    case isTrue hleft =>
      obtain ⟨v, hv, h⟩ := Res.bind_eq_ok.1 h
      have hruns := hpass s hleft hfit
      rw [hv] at hruns
      obtain ⟨u, g, hu, hroom, rfl⟩ := hruns.of_ok
      have hengine := hu.engineOnly.trans (emitAll_engineOnly g u)
      exact ih (by rwa [engineOnly_inLen hengine, engineOnly_ibufSz hengine]) (hP s u g hs hu hroom) h
    case isFalse =>
      obtain rfl := Res.ok.inj h
      exact hs

/-- What consuming and emitting a group that fits keeps, a buffer command keeps up to its completion. -/
theorem RunsGroups.keeps {i : Instr} {width : Nat} {group : List Byte → Res (List Byte)}
    (hi : RunsGroups i width group) {P : State → Prop}
    (hP : ∀ t u g, P t → Consumed width t u → u.dp.outPos.toNat + g.length ≤ u.obufSz.bytes → P (u.emitAll g))
    {s t : State} (hs : P s) (hexec : exec i s = .next t) (hdone : t.status.done = true) :
    ∃ u, P u ∧ t = u.completeBuffer := by
  obtain ⟨pass, hrun, hpass⟩ := hi
  rw [hrun] at hexec
  rcases runBuffer_cases hexec with ⟨-, rfl⟩ | ⟨hfit, u, hu, rfl⟩ | ⟨-, k, -, rfl⟩
  · cases hdone
  · exact ⟨u, groupLoop_keeps_emission hpass hP _ hfit hs hu, rfl⟩
  · cases hdone

/-- A buffer command from OUT_POS = 0 completes with an output that it has emitted within OBUF_SIZE. -/
theorem RunsGroups.emitted {i : Instr} {width : Nat} {group : List Byte → Res (List Byte)}
    (hi : RunsGroups i width group) {s t : State} (hout : s.dp.outPos = 0) (hexec : exec i s = .next t)
    (hdone : t.status.done = true) :
    ∃ u out, Emitted s out u ∧ out.length ≤ s.obufSz.bytes ∧ t = u.completeBuffer := by
  have hstart : Emitted s [] s := ⟨.refl s, by simp [hout], fun _ => rfl⟩
  have hgroup : ∀ v w g, (∃ out, Emitted s out v ∧ out.length ≤ s.obufSz.bytes) → Consumed width v w →
      w.dp.outPos.toNat + g.length ≤ w.obufSz.bytes →
      ∃ out, Emitted s out (w.emitAll g) ∧ out.length ≤ s.obufSz.bytes := by
    rintro v w g ⟨out, hv, -⟩ hw hroom
    have hmoved := hv.consumed hw
    rw [hmoved.outPos, engineOnly_obufSz hmoved.engineOnly] at hroom
    exact ⟨out ++ g, hmoved.emitAll hroom, by rwa [List.length_append]⟩
  obtain ⟨u, ⟨out, hu, hlen⟩, rfl⟩ := hi.keeps hgroup ⟨[], hstart, Nat.zero_le _⟩ hexec hdone
  exact ⟨u, out, hu, hlen, rfl⟩

/-- Settles O18: a success has emitted its output from byte 0 up to OUT_LEN; an error is R197's. -/
theorem bufferCommandFrame : Obligations.BufferCommandFrame := by
  intro i s t hi hout hexec
  have hend := exec_commandEnds hexec
  refine ⟨hend.keepsHostSide, hend.dropped, fun hdone => ?_, fun hdone => ?_⟩
  · obtain ⟨f, hf⟩ := exists_contract hi
    obtain ⟨width, group, -, hruns, -⟩ := exists_runsGroups hf
    obtain ⟨u, out, hu, hlen, rfl⟩ := hruns.emitted hout hexec hdone
    have hstatus := engineOnly_status hu.engineOnly
    have hcount : u.completeBuffer.outLen.toNat = out.length := by
      rw [State.completeBuffer_outLen, BitVec.toNat_setWidth_of_le (by decide), hu.outPos]
    have hresult := engineOnly_result hu.engineOnly
    refine ⟨hresult, ?_, ?_, hcount ▸ hlen, fun a ha => ?_⟩
    · rw [State.completeBuffer_status, hstatus, Status.completed_err]
    · rw [State.completeBuffer_status, hstatus, Status.completed_errcode]
    · rw [completeBuffer_obufAt, hu.obuf, List.getD_eq_getElem?_getD, List.getElem?_eq_none (hcount ▸ ha),
        Option.getD_none]
  · rcases hend.status with hstatus | ⟨k, -, hlen, hresult⟩
    · rw [hstatus] at hdone
      cases hdone
    · exact ⟨hlen, hresult, hend.obufUnspecified hi hdone⟩

/-! The pure functions (40_control.md R96): the capacity, and an input cut at a group's end. -/

/-- Settles O19: a conversion's groups are the same at any capacity. -/
theorem capacityOnlyCutsOff : Obligations.CapacityOnlyCutsOff := by
  have hcut : ∀ width group, 0 < width → ∀ input cap out,
      convertAll width group input (some cap) = .ok out ↔
        convertAll width group input none = .ok out ∧ out.length ≤ cap := by
    intro width group hwidth input cap out
    rw [convertAll_eq_ok_iff hwidth, convertAll_eq_ok_iff hwidth, fits_some]
    simp
  rintro f (rfl | rfl | rfl | rfl)
  · exact hcut 2 enc45Group (by omega)
  · exact hcut 3 dec45Group (by omega)
  · exact hcut 7 encqrChunk (by omega)
  · exact hcut 11 decqrChunk (by omega)

/-- The first group of an input and what follows it: the group is full, or nothing follows. -/
theorem take_drop_group {width : Nat} {g rest : List Byte}
    (hlen : g.length = width ∨ g.length < width ∧ rest = []) :
    (g ++ rest).take width = g ∧ (g ++ rest).drop width = rest := by
  rcases hlen with rfl | ⟨hlt, rfl⟩
  · exact ⟨List.take_left, List.drop_left⟩
  · rw [List.append_nil]
    exact ⟨List.take_of_length_le (Nat.le_of_lt hlt), List.drop_of_length_le (Nat.le_of_lt hlt)⟩

section
variable {width : Nat} {group : List Byte → Res (List Byte)} {cap : Option Nat}

/-- A whole number of groups before the rest of an input: the loop reaches the rest with their output. -/
theorem convert_append {p out : List Byte} (h : Converts width group p out) (hwhole : p.length % width = 0) (n : Nat)
    {acc rest : List Byte} (hn : (p ++ rest).length ≤ n) (hfits : fits cap (acc ++ out).length = true) :
    ∃ m, rest.length ≤ m ∧ convert width group cap n acc (p ++ rest) = convert width group cap m (acc ++ out) rest := by
  induction h generalizing n acc with
  | nil => exact ⟨n, hn, by rw [List.append_nil]; rfl⟩
  | @step p g out hne hgroup _ ih =>
    have hpos := List.length_pos_iff.2 hne
    have hdvd := Nat.dvd_of_mod_eq_zero hwhole
    have hlen : width ≤ p.length := Nat.le_of_dvd hpos hdvd
    have hwidth : 0 < width := Nat.pos_of_dvd_of_pos hdvd hpos
    rw [List.length_append] at hn
    obtain ⟨n, rfl⟩ : ∃ m, n = m + 1 := ⟨n - 1, by omega⟩
    rw [← List.append_assoc] at hfits
    obtain ⟨m, hm, hrest⟩ := ih (by rw [List.length_drop, ← Nat.mod_eq_sub_mod hlen, hwhole]) n (acc := acc ++ g)
      (by rw [List.length_append, List.length_drop]; omega) hfits
    refine ⟨m, hm, ?_⟩
    rw [convert_succ (by simp [hne]), List.take_append_of_le_length hlen, hgroup, Res.bind_ok,
      append_of_fits (fits_of_le (by simp) hfits), Res.bind_ok, List.drop_append_of_le_length hlen, hrest,
      List.append_assoc]

/-- After whole groups that convert, the next group decides: its own error, or whether it fits. -/
theorem convertAll_next {p g rest out : List Byte} (hwidth : 0 < width) (hwhole : p.length % width = 0)
    (hp : convertAll width group p cap = .ok out) (hg : g ≠ [])
    (hlen : g.length = width ∨ g.length < width ∧ rest = []) :
    ∃ m, convertAll width group (p ++ g ++ rest) cap =
      (group g).bind fun o => (append cap out o).bind fun out' => convert width group cap m out' rest := by
  obtain ⟨hconverts, hfits⟩ := (convertAll_eq_ok_iff hwidth).1 hp
  obtain ⟨m, hm, hrun⟩ := convert_append hconverts hwhole (p ++ (g ++ rest)).length (acc := []) (Nat.le_refl _) hfits
  have hpos := List.length_pos_iff.2 hg
  rw [List.length_append] at hm
  obtain ⟨m, rfl⟩ : ∃ n, m = n + 1 := ⟨m - 1, by omega⟩
  obtain ⟨htake, hdrop⟩ := take_drop_group hlen
  rw [List.nil_append, convert_succ (by simp [hg]), htake, hdrop] at hrun
  rw [List.append_assoc]
  exact ⟨m, hrun⟩

theorem convertAll_next_err {p g rest out : List Byte} {k : ErrKind} (hwidth : 0 < width)
    (hwhole : p.length % width = 0) (hp : convertAll width group p cap = .ok out) (hg : g ≠ [])
    (hlen : g.length = width ∨ g.length < width ∧ rest = []) (hk : group g = .err k) :
    convertAll width group (p ++ g ++ rest) cap = .err k := by
  obtain ⟨m, hrun⟩ := convertAll_next hwidth hwhole hp hg hlen
  rw [hrun, hk, Res.bind_err]

theorem convertAll_next_overflow {p g rest out o : List Byte} {c : Nat} (hwidth : 0 < width)
    (hwhole : p.length % width = 0) (hp : convertAll width group p (some c) = .ok out) (hg : g ≠ [])
    (hlen : g.length = width ∨ g.length < width ∧ rest = []) (ho : group g = .ok o)
    (hfull : c < out.length + o.length) :
    convertAll width group (p ++ g ++ rest) (some c) = .err .outputOverflow := by
  obtain ⟨m, hrun⟩ := convertAll_next hwidth hwhole hp hg hlen
  rw [hrun, ho, Res.bind_ok, append_of_not_fits, Res.bind_err]
  rw [fits_some, List.length_append]
  omega

theorem Converts.append {x y sx sy : List Byte} (hx : Converts width group x sx) (hwhole : x.length % width = 0)
    (hy : Converts width group y sy) : Converts width group (x ++ y) (sx ++ sy) := by
  induction hx with
  | nil => exact hy
  | @step x g sx hne hgroup _ ih =>
    have hlen : width ≤ x.length := Nat.le_of_dvd (List.length_pos_iff.2 hne) (Nat.dvd_of_mod_eq_zero hwhole)
    rw [List.append_assoc]
    refine .step (by simp [hne]) (by rwa [List.take_append_of_le_length hlen]) ?_
    rw [List.drop_append_of_le_length hlen]
    exact ih (by rw [List.length_drop, ← Nat.mod_eq_sub_mod hlen, hwhole])

theorem convertAll_append {x y sx sy : List Byte} (hwidth : 0 < width) (hwhole : x.length % width = 0)
    (hx : convertAll width group x none = .ok sx) (hy : convertAll width group y none = .ok sy) :
    convertAll width group (x ++ y) none = .ok (sx ++ sy) := by
  obtain ⟨hx, -⟩ := (convertAll_eq_ok_iff hwidth).1 hx
  obtain ⟨hy, -⟩ := (convertAll_eq_ok_iff hwidth).1 hy
  exact (convertAll_eq_ok_iff hwidth).2 ⟨hx.append hwhole hy, rfl⟩

end

/-- Settles O35: the groups of the whole are those of its pieces. -/
theorem piecesConvertToTheWhole : Obligations.PiecesConvertToTheWhole :=
  ⟨fun _ _ _ _ => convertAll_append (by omega), fun _ _ _ _ => convertAll_append (width := 7) (by omega),
    fun _ _ _ _ => convertAll_append (by omega), fun _ _ _ _ => convertAll_append (width := 11) (by omega)⟩

/-! The order of DEC45's errors (42_triplet.md R133). -/

/-- R104: C2D raises INVALID_CHARACTER on what ALPHA does not hold. -/
theorem c2d_of_not_mem {x : Byte} (hx : x ∉ alphaRom) : c2d x.toNat = .err .invalidCharacter :=
  c2d_of_unmapped (revRom_of_not_mem hx)

theorem c2d_of_mem {x : Byte} (hx : x ∈ alphaRom) : ∃ d, c2d x.toNat = .ok d :=
  (d2c_of_mem hx).imp fun _ hd => c2d_eq_ok_iff_d2c.2 hd

/-- C2D raises INVALID_CHARACTER or answers. -/
theorem c2d_cases (x : Nat) : c2d x = .err .invalidCharacter ∨ ∃ d, c2d x = .ok d := by
  cases h : c2d x with
  | ok d => exact .inr ⟨d, rfl⟩
  | err k => exact .inl (by rw [c2d_err h])

theorem dec45_single_group {g : List Byte} (hg : g ≠ []) (hlen : g.length ≤ 3) : dec45 g none = dec45Group g :=
  convertAll_single hg hlen

theorem dec45Group_triplet_invalid {x y z : Byte} (h : x ∉ alphaRom ∨ y ∉ alphaRom ∨ z ∉ alphaRom) :
    dec45Group [x, y, z] = .err .invalidCharacter := by
  rw [dec45Group]
  rcases c2d_cases x.toNat with hx | ⟨c, hx⟩
  · rw [hx, Res.bind_err]
  rcases c2d_cases y.toNat with hy | ⟨d, hy⟩
  · rw [hx, hy, Res.bind_ok, Res.bind_err]
  rcases c2d_cases z.toNat with hz | ⟨e, hz⟩
  · rw [hx, hy, hz, Res.bind_ok, Res.bind_ok, Res.bind_err]
  rcases h with h | h | h
  · cases hx.symm.trans (c2d_of_not_mem h)
  · cases hy.symm.trans (c2d_of_not_mem h)
  · cases hz.symm.trans (c2d_of_not_mem h)

theorem dec45Group_pair_invalid {x y : Byte} (h : x ∉ alphaRom ∨ y ∉ alphaRom) :
    dec45Group [x, y] = .err .invalidCharacter := by
  rw [dec45Group]
  rcases c2d_cases x.toNat with hx | ⟨c, hx⟩
  · rw [hx, Res.bind_err]
  rcases c2d_cases y.toNat with hy | ⟨d, hy⟩
  · rw [hx, hy, Res.bind_ok, Res.bind_err]
  rcases h with h | h
  · cases hx.symm.trans (c2d_of_not_mem h)
  · cases hy.symm.trans (c2d_of_not_mem h)

/-- Settles O23: the loop comes to the group with the whole groups' output; inside it, the length comes first, then the
characters in order, then the value. -/
theorem dec45ErrorOrder : Obligations.Dec45ErrorOrder := by
  refine ⟨fun p rest g cap out k hwhole hp hlen hk => ?_, fun p x cap out hwhole hp => ?_, fun x y z h => ?_,
    fun x y h => ?_, fun x y z c d e hc hd he hover => ?_,
    fun p rest g cap out o hwhole hp hpos hlen ho hfull => ?_⟩
  · have hg : g ≠ [] := by
      rintro rfl
      cases hk
    rw [dec45_single_group hg (by omega)] at hk
    exact convertAll_next_err (by omega) hwhole hp hg hlen hk
  · rw [← List.append_nil (p ++ [x])]
    exact convertAll_next_err (by omega) hwhole hp (List.cons_ne_nil _ _) (.inr ⟨by simp, rfl⟩) rfl
  · exact (dec45_single_group (List.cons_ne_nil _ _) (by simp)).trans (dec45Group_triplet_invalid h)
  · exact (dec45_single_group (List.cons_ne_nil _ _) (by simp)).trans (dec45Group_pair_invalid h)
  · rw [dec45_single_group (List.cons_ne_nil _ _) (by simp), dec45Group_triplet hc hd he, if_pos hover]
  · have hg : g ≠ [] := List.length_pos_iff.1 hpos
    rw [dec45_single_group hg (by omega)] at ho
    exact convertAll_next_overflow (by omega) hwhole hp hg hlen ho hfull

/-! The values of the chunks, and the order of DECQR's errors (43_chunked.md R161, R173, R175, R177, R178). -/

/-- Settles O29: the chunk alone is spelled by its digits. -/
theorem encqrDigitsSpellTheValue : Obligations.EncqrDigitsSpellTheValue :=
  fun chunk hpos hlen => ⟨digitsOfChunk chunk, encqr_single (List.length_pos_iff.1 hpos) hlen, digitsOfChunk_le chunk,
    digitsOfChunk_length chunk, bigEndian_digitsOfChunk hlen⟩

theorem charsToDigits_of_not_mem {chars : List Byte} {x : Byte} (hx : x ∈ chars) (hinvalid : x ∉ alphaRom) :
    charsToDigits chars = .err .invalidCharacter := by
  induction chars with
  | nil => cases hx
  | cons y rest ih =>
    rw [charsToDigits]
    rcases c2d_cases y.toNat with hy | ⟨d, hy⟩
    · rw [hy, Res.bind_err]
    · rcases List.mem_cons.1 hx with rfl | hx
      · cases hy.symm.trans (c2d_of_not_mem hinvalid)
      · rw [hy, Res.bind_ok, ih hx, Res.bind_err]

theorem charsToDigits_of_mem {chars : List Byte} (h : ∀ x, x ∈ chars → x ∈ alphaRom) :
    ∃ digits, charsToDigits chars = .ok digits := by
  induction chars with
  | nil => exact ⟨[], rfl⟩
  | cons y rest ih =>
    obtain ⟨d, hd⟩ := c2d_of_mem (h y List.mem_cons_self)
    obtain ⟨digits, hdigits⟩ := ih fun x hx => h x (List.mem_cons_of_mem y hx)
    exact ⟨d :: digits, by rw [charsToDigits, hd, Res.bind_ok, hdigits, Res.bind_ok]⟩

/-- R173: the characters come first. -/
theorem decqrChunk_of_not_mem {chunk : List Byte} {x : Byte} (hx : x ∈ chunk) (hinvalid : x ∉ alphaRom) :
    decqrChunk chunk = .err .invalidCharacter := by
  rw [decqrChunk, charsToDigits_of_not_mem hx hinvalid, Res.bind_err]

/-- R173: then the length. -/
theorem decqrChunk_of_invalid_length {chunk : List Byte} (h : ∀ x, x ∈ chunk → x ∈ alphaRom) {k : ErrKind}
    (hk : d2b chunk.length = .err k) : decqrChunk chunk = .err k := by
  obtain ⟨digits, hdigits⟩ := charsToDigits_of_mem h
  rw [decqrChunk, hdigits, Res.bind_ok, hk, Res.bind_err]

theorem decqr_single {chunk : List Byte} (hne : chunk ≠ []) (hlen : chunk.length ≤ 11) :
    decqr chunk none = decqrChunk chunk :=
  convertAll_single hne hlen

/-- R172: the digit counts below 11 that are no chunk's. -/
theorem d2b_of_invalid {m : Nat} (h : m = 1 ∨ m = 4 ∨ m = 7 ∨ m = 10) : d2b m = .err .invalidChunkLength := by
  rcases h with rfl | rfl | rfl | rfl <;> rfl

/-- Settles O30: the loop comes to the chunk with the whole chunks' output; inside it, the characters come before the
length. -/
theorem decqrErrorOrder : Obligations.DecqrErrorOrder := by
  refine ⟨fun p g rest cap out hwhole hp hpos hlen hbad => ?_, fun p g cap out hwhole hp hlen hchars => ?_,
    fun p g rest cap out o hwhole hp hpos hlen ho hfull => ?_, by decide, by decide⟩
  · obtain ⟨x, hx, hinvalid⟩ := hbad
    exact convertAll_next_err (width := 11) (by omega) hwhole hp (List.length_pos_iff.1 hpos) hlen
      (decqrChunk_of_not_mem hx hinvalid)
  · rw [← List.append_nil (p ++ g)]
    exact convertAll_next_err (width := 11) (by omega) hwhole hp (List.length_pos_iff.1 (by omega))
      (.inr ⟨by omega, rfl⟩) (decqrChunk_of_invalid_length hchars (d2b_of_invalid hlen))
  · have hg : g ≠ [] := List.length_pos_iff.1 hpos
    rw [decqr_single hg (by omega)] at ho
    exact convertAll_next_overflow (width := 11) (by omega) hwhole hp hg hlen ho hfull

theorem pushBytes_append (n v : Nat) (lifo : List Byte) : pushBytes n v lifo = pushBytes n v [] ++ lifo := by
  induction n generalizing v lifo with
  | zero => rfl
  | succ n ih => rw [pushBytes, pushBytes, ih, ih (v / 256) [_], List.append_assoc, List.singleton_append]

/-- R177, R178: the bytes popped spell the low bits of the value. -/
theorem bigEndian_pushBytes (n v : Nat) : bigEndian 256 (values (pushBytes n v [])) = v % 256 ^ n := by
  induction n generalizing v with
  | zero => exact (Nat.mod_one v).symm
  | succ n ih =>
    have hlow : (BitVec.ofNat 8 (v % 256)).toNat = v % 256 := by
      rw [BitVec.toNat_ofNat]
      omega
    rw [pushBytes, pushBytes_append, values, List.map_append, List.map_singleton, bigEndian_append, ← values, ih, hlow,
      Nat.pow_succ', Nat.mod_mul]
    omega

/-- Settles O31: the chunk's value is pushed byte by byte, and what is left of it is dropped. -/
theorem decqrBytesSpellTheValue : Obligations.DecqrBytesSpellTheValue := by
  refine ⟨fun chunk digits nb hpos hlen hdigits hnb => ⟨pushBytes nb (bigEndian 45 digits) [], ?_, ?_, ?_⟩,
    by decide, by decide, by decide⟩
  · rw [decqr_single (List.length_pos_iff.1 hpos) hlen, decqrChunk, hdigits, Res.bind_ok, hnb, Res.bind_ok]
  · rw [pushBytes_length, List.length_nil, Nat.add_zero]
  · exact bigEndian_pushBytes nb _

/-! INVALID_DIGIT_VALUE (41_alphabet.md R107). -/

theorem b2d_err {n : Nat} {k : ErrKind} (h : b2d n = .err k) : k = .invalidChunkLength := by
  unfold b2d at h
  split at h
  · exact (Res.err.inj h).symm
  · cases h

/-- R163, R165: a chunk of ENCQR can only be too long; its digits are digits. -/
theorem encqrChunk_err {chunk : List Byte} {k : ErrKind} (h : encqrChunk chunk = .err k) : k = .invalidChunkLength := by
  rcases Res.bind_eq_err.1 h with hlen | ⟨n, -, h⟩
  · exact b2d_err hlen
  · rw [digitsToChars_of_le fun d hd => lowDigits_le (List.mem_reverse.1 hd)] at h
    cases h

theorem answerByte_err {r : Res Nat} {k : ErrKind} (h : answerByte r = .err k) : r = .err k := by
  rcases Res.bind_eq_err.1 h with h | ⟨n, -, h⟩
  · exact h
  · cases h

theorem code_eq_one {k : ErrKind} (h : k.code = 1) : k = .invalidDigitValue := by
  cases k with
  | invalidDigitValue => rfl
  | invalidCharacter | accumulatorOverflow | truncatedInput | invalidChunkLength | illegalCommand | inputLengthRange
  | outputOverflow => cases h

/-- R107: no buffer command's function looks up a digit above 44. -/
theorem contract_err_ne {i : Instr} {f : List Byte → Option Nat → Res (List Byte)} (hf : contractOf i = some f)
    {input : List Byte} {cap : Option Nat} {k : ErrKind} (h : f input cap = .err k) : k ≠ .invalidDigitValue := by
  cases i with
  | nop | d2c | c2d | b2d | d2b => cases hf
  | enc45 =>
    obtain rfl := Option.some.inj hf
    rw [enc45_err h]
    exact ErrKind.noConfusion
  | dec45 =>
    obtain rfl := Option.some.inj hf
    rcases convertAll_err h with rfl | ⟨g, hg⟩
    · exact ErrKind.noConfusion
    · rcases dec45Group_err hg with rfl | rfl | rfl <;> exact ErrKind.noConfusion
  | encqr =>
    obtain rfl := Option.some.inj hf
    rcases convertAll_err h with rfl | ⟨g, hg⟩
    · exact ErrKind.noConfusion
    · rw [encqrChunk_err hg]
      exact ErrKind.noConfusion
  | decqr =>
    obtain rfl := Option.some.inj hf
    rcases convertAll_err h with rfl | ⟨g, hg⟩
    · exact ErrKind.noConfusion
    · rcases decqrChunk_err hg with rfl | rfl <;> exact ErrKind.noConfusion

/-- 40_control.md R96: an accepted buffer command is out of range, or answers as its pure function does. -/
theorem exec_meets_contract {i : Instr} {f : List Byte → Option Nat → Res (List Byte)} (hf : contractOf i = some f)
    {s : State} (hs : Accepted s) :
    (s.ibufSz.bytes < s.inLen.toNat ∧ FailsWith i ErrKind.inputLengthRange.code s) ∨
      (∃ out, f s.input (some s.obufSz.bytes) = .ok out ∧ SucceedsWith i out s) ∨
      (∃ k, f s.input (some s.obufSz.bytes) = .err k ∧ FailsWith i k.code s) := by
  obtain ⟨width, group, -, hruns, rfl⟩ := exists_runsGroups hf
  rcases Nat.lt_or_ge s.ibufSz.bytes s.inLen.toNat with hlong | hfit
  · exact .inl ⟨hlong, hruns.failsWith_range hlong⟩
  · cases hout : convertAll width group s.input (some s.obufSz.bytes) with
    | ok out => exact .inr (.inl ⟨out, rfl, hruns.succeedsWith hs hfit hout⟩)
    | err k => exact .inr (.inr ⟨k, rfl, hruns.failsWith hs hfit hout⟩)

theorem errcode_of_failsWith {i : Instr} {code : BitVec 4} {s t : State} (hfail : FailsWith i code s)
    (h : exec i s = .next t) : t.status.errcode = code := by
  obtain ⟨t', h', ⟨hstatus, -⟩, -⟩ := hfail
  obtain rfl := Host.Outcome.next.inj (h.symm.trans h')
  exact congrArg Status.errcode hstatus

theorem buffer_errcode_ne_one {i : Instr} (hi : i.commandClass = .buffer) {s t : State} (hs : Accepted s)
    (h : exec i s = .next t) : t.status.errcode ≠ 1 := by
  obtain ⟨f, hf⟩ := exists_contract hi
  rcases exec_meets_contract hf hs with ⟨-, hfail⟩ | ⟨out, -, t', h', -, -, hcode, -⟩ | ⟨k, hk, hfail⟩
  · rw [errcode_of_failsWith hfail h]
    decide
  · obtain rfl := Host.Outcome.next.inj (h.symm.trans h')
    rw [hcode]
    decide
  · rw [errcode_of_failsWith hfail h]
    exact fun hone => contract_err_ne hf hk (code_eq_one hone)

/-- A lookup whose table does not raise it does not end with code 1. -/
theorem lookup_errcode_ne_one {r : Res Byte} (hr : ∀ k, r = .err k → k ≠ .invalidDigitValue) {s t : State}
    (hs : Cleared s) (h : lookup r s = .next t) : t.status.errcode ≠ 1 := by
  rcases lookup_cases h with ⟨v, -, rfl⟩ | ⟨k, hk, rfl⟩
  · obtain ⟨-, hcode, -⟩ := hs
    rw [State.completeLookup_status, Status.completed_errcode, hcode]
    decide
  · exact fun hone => hr k hk (code_eq_one hone)

/-- Settles O34: no table but D2C's raises INVALID_DIGIT_VALUE, and the encoders' digits are at most 44. -/
theorem digitErrorOnlyFromD2c : Obligations.DigitErrorOnlyFromD2c := by
  refine ⟨fun input cap => ⟨fun h => contract_err_ne (i := .enc45) rfl h rfl,
    fun h => contract_err_ne (i := .encqr) rfl h rfl⟩, fun i s t hs h hcode => ?_⟩
  have hcleared := cleared_of_accepted hs
  cases i with
  | d2c imm => exact ⟨imm, rfl⟩
  | nop =>
    obtain rfl := Host.Outcome.next.inj h
    obtain ⟨-, hzero, -⟩ := hcleared
    rw [State.complete_status, Status.completed_errcode, hzero] at hcode
    cases hcode
  | enc45 | dec45 | encqr | decqr => exact absurd hcode (buffer_errcode_ne_one rfl hs h)
  | c2d imm =>
    refine absurd hcode (lookup_errcode_ne_one (fun k hk => ?_) hcleared h)
    rw [c2d_err (answerByte_err hk)]
    exact ErrKind.noConfusion
  | b2d imm =>
    refine absurd hcode (lookup_errcode_ne_one (fun k hk => ?_) hcleared h)
    rw [b2d_err (answerByte_err hk)]
    exact ErrKind.noConfusion
  | d2b imm =>
    refine absurd hcode (lookup_errcode_ne_one (fun k hk => ?_) hcleared h)
    rw [d2b_err (answerByte_err hk)]
    exact ErrKind.noConfusion

/-! The lookup commands and NOP, on every operand (41_alphabet.md R102, R106; 43_chunked.md R150 to R153;
40_control.md R95). -/

/-- R94: a lookup command whose table answers completes with the answer. -/
theorem looksUp_of_ok {i : Instr} {r : Res Byte} {v : Byte} {n : Nat} (s : State) (hi : exec i s = lookup r s)
    (hr : r = .ok v) (hv : v.toNat = n) : LooksUp i n s := by
  subst hr
  refine ⟨_, hi, rfl, ?_, rfl⟩
  rw [State.completeLookup_result, BitVec.toNat_setWidth_of_le (by decide), hv]

/-- R196: a lookup command whose table raises ends with the error. -/
theorem lookupFails_of_err {i : Instr} {r : Res Byte} {k : ErrKind} (s : State) (hi : exec i s = lookup r s)
    (hr : r = .err k) : LookupFails i k.code s := by
  subst hr
  exact ⟨_, hi, ⟨rfl, rfl, rfl⟩, fun _ => rfl⟩

theorem d2c_looksUp (s : State) {imm : Nat} (himm : imm ≤ 44) : LooksUp (.d2c imm) (alphaRom.getD imm 0).toNat s :=
  looksUp_of_ok s rfl (d2c_eq_of_le himm) rfl

/-- Settles O9: R100's bounds check splits the operands at 44. -/
theorem d2cGivesTheCharacter : Obligations.D2cGivesTheCharacter :=
  ⟨fun s _ himm => d2c_looksUp s himm, fun s _ himm => lookupFails_of_err (k := .invalidDigitValue) s rfl (if_pos himm),
    fun s => ⟨d2c_looksUp s (by decide), d2c_looksUp s (by decide), d2c_looksUp s (by decide)⟩⟩

/-- A table's number below 256 is the lookup's byte. -/
theorem answerByte_looksUp {i : Instr} {r : Res Nat} {n : Nat} (s : State) (hi : exec i s = lookup (answerByte r) s)
    (hr : r = .ok n) (hn : n < 256) : LooksUp i n s := by
  subst hr
  refine looksUp_of_ok s hi rfl ?_
  rw [BitVec.toNat_ofNat]
  omega

theorem answerByte_fails {i : Instr} {r : Res Nat} {k : ErrKind} (s : State) (hi : exec i s = lookup (answerByte r) s)
    (hr : r = .err k) : LookupFails i k.code s := by
  subst hr
  exact lookupFails_of_err s hi rfl

/-- R104, R106: a number that is no alphabet character's code has no digit value. -/
theorem c2d_of_not_code {imm : Nat} (h : ∀ d, d ≤ 44 → (alphaRom.getD d 0).toNat ≠ imm) :
    c2d imm = .err .invalidCharacter := by
  rcases c2d_cases imm with herr | ⟨d, hd⟩
  · exact herr
  · have hbyte : imm ≤ 255 := Nat.le_of_not_lt fun hlarge => by
      rw [c2d, if_pos hlarge] at hd
      cases hd
    have himm : (BitVec.ofNat 8 imm).toNat = imm := by
      rw [BitVec.toNat_ofNat]
      omega
    rw [← himm] at hd
    have hchar := c2d_eq_ok_iff_d2c.1 hd
    rw [d2c_eq_of_le (le_of_c2d hd)] at hchar
    exact absurd ((congrArg BitVec.toNat (Res.ok.inj hchar)).trans himm) (h d (le_of_c2d hd))

/-- Settles O10: C2D answers exactly on the codes that ALPHA holds. -/
theorem c2dGivesTheDigit : Obligations.C2dGivesTheDigit := by
  have hfails : ∀ {imm}, c2d imm = .err .invalidCharacter → ∀ s, LookupFails (.c2d imm) 2 s :=
    fun h s => answerByte_fails s rfl h
  exact ⟨fun s _ hd => answerByte_looksUp s rfl (c2d_alpha hd) (by omega),
    fun s _ himm => hfails (c2d_of_not_code himm) s,
    fun s => ⟨answerByte_looksUp s rfl rfl (by decide), answerByte_looksUp s rfl rfl (by decide),
      answerByte_looksUp s rfl rfl (by decide), hfails rfl s, hfails rfl s, hfails rfl s⟩⟩

/-- R153: D2B refuses every digit count that is no chunk's. -/
theorem d2b_of_invalid_count {m : Nat} (h : m = 1 ∨ m = 4 ∨ m = 7 ∨ m = 10 ∨ 11 < m) :
    d2b m = .err .invalidChunkLength := by
  rcases h with h | h | h | h | h
  · exact d2b_of_invalid (.inl h)
  · exact d2b_of_invalid (.inr (.inl h))
  · exact d2b_of_invalid (.inr (.inr (.inl h)))
  · exact d2b_of_invalid (.inr (.inr (.inr h)))
  · exact if_pos h

/-- Settles O11: the entries of the two tables, and their bounds checks. -/
theorem countLookupsAnswer : Obligations.CountLookupsAnswer := by
  have hb2d : ∀ {n d}, b2d n = .ok d → d < 256 → ∀ s, LooksUp (.b2d n) d s :=
    fun h hd s => answerByte_looksUp s rfl h hd
  have hd2b : ∀ {m n}, d2b m = .ok n → n < 256 → ∀ s, LooksUp (.d2b m) n s :=
    fun h hn s => answerByte_looksUp s rfl h hn
  refine ⟨fun s => ?_, fun s _ himm => answerByte_fails (k := .invalidChunkLength) s rfl (if_pos himm), fun s => ?_,
    fun s _ himm => answerByte_fails s rfl (d2b_of_invalid_count himm)⟩
  · exact ⟨hb2d rfl (by decide) s, hb2d rfl (by decide) s, hb2d rfl (by decide) s, hb2d rfl (by decide) s,
      hb2d rfl (by decide) s, hb2d rfl (by decide) s, hb2d rfl (by decide) s, hb2d rfl (by decide) s⟩
  · exact ⟨hd2b rfl (by decide) s, hd2b rfl (by decide) s, hd2b rfl (by decide) s, hd2b rfl (by decide) s,
      hd2b rfl (by decide) s, hd2b rfl (by decide) s, hd2b rfl (by decide) s, hd2b rfl (by decide) s⟩

/-- Settles O12: NOP's next state is the completion. -/
theorem nopCompletes : Obligations.NopCompletes :=
  fun s => ⟨s.complete, rfl, rfl, rfl, rfl, CommandEnds.nop.keepsHostSide, fun _ => rfl⟩

/-! Reads and writes of the host registers (10_state.md R22 to R30; 20_memory.md R57). -/

theorem ofNat_bytes_toNat (z : Config.BufSize) : (BitVec.ofNat 32 z.bytes).toNat = z.bytes := by
  obtain ⟨-, hsize, -⟩ := bytes_bounds z
  rw [BitVec.toNat_ofNat]
  omega

/-- Settles O38: each of the eight offsets reaches its register. -/
theorem registerReads : Obligations.RegisterReads := by
  intro s
  have hread : ∀ (A : BitVec 18) {x : Target}, A.toNat % 4 = 0 → A.toNat < ibufWindow → registerAt A.toNat = some x →
      OnlyResponds { code := .ok, data := some (s.readValue x) } s (s.busAccess (rd A)) :=
    fun _ _ => onlyResponds_rd_register s
  exact ⟨hread 0 (by decide) (by decide) rfl, hread 4 (by decide) (by decide) rfl,
    hread 8 (by decide) (by decide) rfl, hread 12 (by decide) (by decide) rfl, hread 16 (by decide) (by decide) rfl,
    hread 20 (by decide) (by decide) rfl, ⟨_, hread 24 (by decide) (by decide) rfl, ofNat_bytes_toNat s.ibufSz⟩,
    ⟨_, hread 28 (by decide) (by decide) rfl, ofNat_bytes_toNat s.obufSz⟩⟩

/-- R24, R30: STATUS as a number. -/
theorem status_word_toNat (f : Status) :
    f.word.toNat = f.busy.toNat + 2 * f.done.toNat + 4 * f.err.toNat + 8 * f.dropped.toNat + 256 * f.errcode.toNat := by
  have hbusy := f.busy.toNat_le
  have hdone := f.done.toNat_le
  have herr := f.err.toNat_le
  have hdropped := f.dropped.toNat_le
  have hcode := f.errcode.isLt
  simp only [Status.word, BitVec.toNat_ofNat, flagBit_eq]
  omega

theorem status_reset_word : Status.reset.word = 0 := by decide

/-- A slice of a word, by its number. -/
theorem extractLsb'_eq_of_toNat {w : Word} {start len : Nat} {v : BitVec len}
    (h : w.toNat / 2 ^ start % 2 ^ len = v.toNat) : w.extractLsb' start len = v := by
  refine BitVec.eq_of_toNat_eq ?_
  rw [BitVec.extractLsb'_toNat, Nat.shiftRight_eq_div_pow, h]

/-- Settles O39: the flags and ERRCODE are STATUS's digits, each below the next one's weight. -/
theorem statusWordAndErrorCodes : Obligations.StatusWordAndErrorCodes := by
  refine ⟨fun f => ?_, rfl, rfl, rfl, rfl, rfl, rfl, rfl, rfl⟩
  have hbusy := f.busy.toNat_le
  have hdone := f.done.toNat_le
  have herr := f.err.toNat_le
  have hdropped := f.dropped.toNat_le
  have hcode := f.errcode.isLt
  have hword := status_word_toNat f
  obtain ⟨h0, h1, h2⟩ := status_word_low_bits f
  refine ⟨h0, h1, h2, ?_, extractLsb'_eq_of_toNat ?_, extractLsb'_eq_of_toNat ?_, extractLsb'_eq_of_toNat ?_⟩
  · have hbit : f.word.toNat / 2 ^ 3 % 2 = f.dropped.toNat := by omega
    rw [BitVec.getLsbD, Nat.testBit_eq_decide_div_mod_eq, hbit]
    simp [Bool.toNat_eq_one]
  · show _ = 0
    omega
  · omega
  · show _ = 0
    omega

/-- R25: a word written to IN_LEN while BUSY = 0 is stored as it is. -/
theorem busAccess_wr_inLen_idle {s : State} (d : Word) (hidle : s.status.busy = false) :
    s.busAccess (wr 8 d) = (s.writeInLen d).respond okWrite := by
  have hx : s.target (8 : BitVec 18).toNat = some .inLen := target_register s (by decide)
  rw [busAccess_wr_of_target d (by decide) hx, State.writeEffect, guarded_idle _ hidle]

/-- Settles O44: while BUSY = 0 the write to IN_LEN has its effect. -/
theorem inLenIsStoredWhole : Obligations.InLenIsStoredWhole :=
  fun _ d hidle => busAccess_wr_inLen_idle d hidle

/-- What a read answers while BUSY = 0 (R50 to R54, R57). -/
def readAnswer (a : Access) (s : State) : Response :=
  if a.aligned then
    match s.target a.offset.toNat with
    | none => busError .read
    | some x => okRead (s.readValue x)
  else busError .read

theorem readTarget_idle {s : State} (x : Target) (hidle : s.status.busy = false) :
    s.readTarget x = s.respond (okRead (s.readValue x)) := by
  cases x with
  | obufWord first => exact readTarget_obufWord_idle first hidle
  | cmd | status | inLen | outLen | result | id | ibufSz | obufSz | ibufWord => rfl

theorem busAccess_read_idle {a : Access} {s : State} (hread : a.op = .read) (hidle : s.status.busy = false) :
    s.busAccess a = s.respond (readAnswer a s) := by
  unfold State.busAccess readAnswer
  rw [hread]
  split
  · cases s.target a.offset.toNat with
    | none => rfl
    | some x => exact readTarget_idle x hidle
  · rfl

/-- R57: reading a mapped word changes the record of responses, and a free word is drawn for OBUF while BUSY = 1. -/
theorem readTarget_eq (s : State) (x : Target) :
    s.readTarget x = { s with responses := (s.readTarget x).responses, draws := (s.readTarget x).draws } := by
  unfold State.readTarget
  split
  · split <;> rfl
  · rfl

theorem busAccess_read_eq {a : Access} {s : State} (hread : a.op = .read) :
    s.busAccess a = { s with responses := (s.busAccess a).responses, draws := (s.busAccess a).draws } := by
  unfold State.busAccess
  rw [hread]
  split
  · cases s.target a.offset.toNat with
    | none => rfl
    | some x => exact readTarget_eq s x
  · rfl

/-- Settles O41: what a read answers while BUSY = 0 is in the registers and buffers, which it does not change. -/
theorem readsHaveNoSideEffect : Obligations.ReadsHaveNoSideEffect := by
  intro a s hread
  refine ⟨busAccess_read_eq hread, fun hidle => ⟨readAnswer a s, ?_, ?_⟩⟩
  · rw [busAccess_read_idle hread hidle]
    rfl
  · have hagain : readAnswer a (s.respond (readAnswer a s)) = readAnswer a s := rfl
    rw [busAccess_read_idle hread hidle, busAccess_read_idle (s := s.respond _) hread hidle, hagain,
      State.respond_responses, State.respond_responses, List.append_assoc]
    rfl

/-! What a host access does to the block, beside its response (20_memory.md R50 to R57). -/

/-- The effects of an access. -/
inductive AccessEffect (s : State) : State → Prop where
  | same : AccessEffect s s
  | drawn : AccessEffect s { s with draws := s.draws + 1 }
  | dropped (hbusy : s.status.busy = true) : AccessEffect s s.dropWrite
  | accepted (hidle : s.status.busy = false) (w : Word) : AccessEffect s (s.accept w)
  | length (hidle : s.status.busy = false) (d : Word) : AccessEffect s (s.writeInLen d)
  | stored (hidle : s.status.busy = false) {first : Nat} (hfirst : first + 3 < s.ibufSz.bytes) (d : Word) :
      AccessEffect s (s.storeIbuf first d)

/-- R54: a word of IBUF that an aligned offset reaches lies in the capacity. -/
theorem ibufWord_lt {s : State} {offset first : Nat} (hx : s.target offset = some (.ibufWord first))
    (haligned : offset % 4 = 0) : first + 3 < s.ibufSz.bytes := by
  obtain ⟨-, -, hwords⟩ := bytes_bounds s.ibufSz
  unfold State.target at hx
  split at hx
  · obtain rfl := Target.ibufWord.inj (Option.some.inj hx)
    simp only [ibufWindow] at *
    omega
  · split at hx
    · cases hx
    · unfold registerAt at hx
      split at hx <;> cases hx

theorem guarded_effect {s : State} {write : State → State} (hidle : s.status.busy = false → AccessEffect s (write s)) :
    AccessEffect s (s.guarded write) := by
  cases hbusy : s.status.busy with
  | false =>
    rw [guarded_idle write hbusy]
    exact hidle hbusy
  | true =>
    rw [guarded_busy write hbusy]
    exact .dropped hbusy

theorem writeEffect_effect {s : State} {offset : Nat} {x : Target} (d : Word) (hx : s.target offset = some x)
    (haligned : offset % 4 = 0) : AccessEffect s (s.writeEffect d x) := by
  cases x with
  | cmd => exact guarded_effect fun hidle => .accepted hidle d
  | inLen => exact guarded_effect fun hidle => .length hidle d
  | ibufWord first => exact guarded_effect fun hidle => .stored hidle (ibufWord_lt hx haligned) d
  | status | outLen | result | id | ibufSz | obufSz | obufWord => exact .same

theorem readTarget_effect (s : State) (x : Target) :
    ∃ u v, AccessEffect s u ∧ s.readTarget x = u.respond (okRead v) := by
  unfold State.readTarget
  split
  · split
    · exact ⟨_, _, .drawn, rfl⟩
    · exact ⟨_, _, .same, rfl⟩
  · exact ⟨_, _, .same, rfl⟩

theorem busError_data (op : AccessOp) : (busError op).data.isSome = true ↔ op = .read := by
  cases op <;> simp [busError]

/-- R50: an access has one effect and one response, with data exactly for a read. -/
theorem busAccess_effect (a : Access) (s : State) :
    ∃ u r, AccessEffect s u ∧ s.busAccess a = u.respond r ∧ (r.data.isSome = true ↔ a.op = .read) := by
  unfold State.busAccess
  split
  case isTrue haligned =>
    split
    · exact ⟨s, _, .same, rfl, busError_data a.op⟩
    case h_2 x hx =>
      split
      case h_1 hop =>
        obtain ⟨u, v, hu, hread⟩ := readTarget_effect s x
        exact ⟨u, _, hu, hread, by simp [okRead, hop]⟩
      case h_2 d hop =>
        obtain ⟨-, hoffset⟩ := (aligned_iff a).1 haligned
        exact ⟨_, _, writeEffect_effect d hx hoffset, rfl, by simp [okWrite, hop]⟩
  case isFalse => exact ⟨s, _, .same, rfl, busError_data a.op⟩

section
variable {s u : State} (h : AccessEffect s u)
include h

theorem AccessEffect.resetLine : u.resetLine = s.resetLine := by cases h <;> rfl

theorem AccessEffect.ibufSz : u.ibufSz = s.ibufSz := by cases h <;> rfl

theorem AccessEffect.obufSz : u.obufSz = s.obufSz := by cases h <;> rfl

theorem AccessEffect.obufAt (a : Nat) : u.obufAt a = s.obufAt a := by cases h <;> rfl

theorem AccessEffect.pending : u.pending = s.pending := by cases h <;> rfl

theorem AccessEffect.schedule : u.schedule = s.schedule := by cases h <;> rfl

theorem AccessEffect.responses : u.responses = s.responses := by cases h <;> rfl

/-- No access ends a command. -/
theorem AccessEffect.busy (hbusy : s.status.busy = true) : u.status.busy = true := by
  cases h with
  | same | drawn | dropped => exact hbusy
  | accepted => rfl
  | length | stored => exact hbusy

end

/-! What a step does (40_control.md R90, R91; 70_reset_and_hazards.md R220 to R228). -/

/-- The engine's step ends a command, legal or not. -/
theorem engineStep_ends {s t : State} (h : engineStep s = .next t) :
    t = s.raise .illegalCommand ∨ ∃ i, CommandEnds s i t := by
  rcases engineStep_cases h with ⟨y, -, ht⟩ | ⟨i, -, ht⟩
  · exact .inl (Host.Outcome.next.inj ht)
  · exact .inr ⟨i, exec_commandEnds ht.symm⟩

theorem engineStep_next (s : State) : ∃ t, engineStep s = .next t := by
  unfold engineStep
  split
  · exact exec_next _ s
  · exact ⟨_, rfl⟩

theorem engineStep_keepsHostSide {s t : State} (h : engineStep s = .next t) : KeepsHostSide s t := by
  rcases engineStep_ends h with rfl | ⟨i, hend⟩
  · exact ⟨rfl, rfl, rfl, rfl, fun _ => rfl, rfl, rfl, rfl, rfl⟩
  · exact hend.keepsHostSide

theorem engineStep_status {s t : State} (h : engineStep s = .next t) :
    t.status = s.status.completed ∨ ∃ k, t.status = s.status.failed k := by
  rcases engineStep_ends h with rfl | ⟨i, hend⟩
  · exact .inr ⟨_, rfl⟩
  · exact hend.status.imp_right fun ⟨k, hk, _⟩ => ⟨k, hk⟩

/-- A step of the engine leaves it idle. -/
theorem engineStep_idle {s t : State} (h : engineStep s = .next t) : t.status.busy = false := by
  rcases engineStep_status h with hstatus | ⟨k, hstatus⟩ <;> rw [hstatus] <;> rfl

/-- The state in which the oldest input reaches the block: it is no longer pending, and has used a turn up while
BUSY = 1 (log 7). -/
def atInput (rest : List Input) (s : State) : State :=
  { s with pending := rest, schedule := if s.status.busy then s.schedule.tail else s.schedule }

theorem atInput_eq (rest : List Input) (s : State) :
    ({ (if s.status.busy then s.takeTurn else s) with pending := rest } : State) = atInput rest s := by
  unfold atInput
  split <;> rfl

theorem step_atInput {s : State} {e : Input} {rest : List Input} (hm : s.engineMoves = false)
    (hp : s.pending = e :: rest) : step s = applyInput e (atInput rest s) := by
  rw [step_input hm hp, atInput_eq]

theorem applyInput_access {s : State} (a : Access) (hreset : s.resetLine = false) :
    applyInput (.access a) s = .next (s.busAccess a) :=
  if_neg (by simp [hreset])

/-- The steps that go on, one kind each. -/
inductive Moves (s : State) : State → Prop where
  | engine {t : State} (hm : s.engineMoves = true) (h : engineStep s.takeTurn = .next t) : Moves s t
  | wait (hm : s.engineMoves = false) (hp : s.pending = []) : Moves s s
  | access (hm : s.engineMoves = false) {a : Access} {rest : List Input} (hp : s.pending = .access a :: rest)
      (hreset : s.resetLine = false) : Moves s ((atInput rest s).busAccess a)
  | assertReset (hm : s.engineMoves = false) {rest : List Input} (hp : s.pending = .assertReset :: rest) :
      Moves s (atInput rest s).assertReset
  | releaseReset (hm : s.engineMoves = false) {rest : List Input} (hp : s.pending = .releaseReset :: rest) :
      Moves s (atInput rest s).releaseReset

theorem step_moves {s t : State} (h : step s = .next t) : Moves s t := by
  rcases step_cases h with ⟨hm, h⟩ | ⟨hm, hp, rfl⟩ | ⟨hm, e, rest, hp, h⟩
  · exact .engine hm h
  · exact .wait hm hp
  · rw [atInput_eq] at h
    rcases applyInput_cases h with ⟨a, rfl, hreset, rfl⟩ | ⟨rfl, rfl⟩ | ⟨rfl, rfl⟩
    · exact .access hm hp hreset
    · exact .assertReset hm hp
    · exact .releaseReset hm hp

theorem step_wait {s : State} (hm : s.engineMoves = false) (hp : s.pending = []) : step s = .next s := by
  unfold step machineStep hostStep
  rw [hm, hp]
  rfl

/-- Settles O46: when no host input goes first the engine moves, and runs what CUR decodes to. -/
theorem stepRunsTheDecodedCommand : Obligations.StepRunsTheDecodedCommand := by
  intro s hbusy hreset hturn
  have hm : s.engineMoves = true := by
    rcases hturn with h | h | h <;> simp [State.engineMoves, hbusy, hreset, h]
  refine ⟨fun i hi => ?_,
    fun y hy => ⟨_, (step_engine hm).trans (engineStep_illegal hy), ⟨rfl, rfl, rfl⟩, fun _ => rfl⟩⟩
  have hcur : decode s.takeTurn.dp.cur = .legal i := hi
  rw [step_engine hm, engineStep, hcur]
  rfl

/-- Settles O51: the three kinds of step, each with what it leaves of the reset line. -/
theorem assertingResetAbandons : Obligations.AssertingResetAbandons := by
  refine ⟨fun s rest hm hp => ?_, fun s rest hm hp => ?_, fun s t h hline => ?_⟩
  · exact ⟨_, step_atInput hm hp, rfl, status_reset_word, rfl, rfl, rfl, rfl, rfl, rfl, fun _ => rfl, fun _ => rfl, rfl,
      engineMoves_idle rfl, rfl, rfl⟩
  · exact ⟨_, step_atInput hm hp, rfl, fun hidle => by simp [atInput, hidle]⟩
  · cases step_moves h with
    | engine hm h =>
      obtain ⟨-, -, -, -, -, hkept, -⟩ := engineStep_keepsHostSide h
      exact hkept
    | wait => rfl
    | access hm hp hreset =>
      obtain ⟨u, r, hu, haccess, -⟩ := busAccess_effect _ (atInput _ s)
      rw [haccess]
      exact hu.resetLine
    | assertReset hm hp | releaseReset hm hp => simp [hm, hp] at hline

/-- Settles O55: the host's access while reset is asserted has no step; the engine's commands, the changes of the line,
any other access and waiting have one. -/
theorem onlyResetStopsTheHost : Obligations.OnlyResetStopsTheHost := by
  intro s
  constructor
  · rintro ⟨⟨a, rest, hp⟩, hreset⟩
    have hm : s.engineMoves = false := by simp [State.engineMoves, hreset]
    rw [step_atInput hm hp]
    exact if_pos hreset
  · intro hfree
    cases hm : s.engineMoves with
    | true =>
      obtain ⟨t, ht⟩ := engineStep_next s.takeTurn
      exact ⟨t, (step_engine hm).trans ht⟩
    | false =>
      cases hp : s.pending with
      | nil => exact ⟨s, step_wait hm hp⟩
      | cons e rest =>
        cases e with
        | assertReset | releaseReset => exact ⟨_, step_atInput hm hp⟩
        | access a =>
          have hreset : s.resetLine = false := by
            refine Bool.eq_false_iff.2 fun hreset => hfree ⟨⟨a, rest, hp⟩, hreset⟩
          exact ⟨_, (step_atInput hm hp).trans (applyInput_access a hreset)⟩

/-- Settles O56: an access accepts, drops or leaves STATUS, and the engine's step ends a command. -/
theorem flagsAreWrittenByEvents : Obligations.FlagsAreWrittenByEvents := by
  intro s t h
  cases step_moves h with
  | engine hm h =>
    obtain ⟨hbusy, -⟩ := engineMoves_busy hm
    rcases engineStep_status h with hstatus | ⟨k, hstatus⟩
    · exact .inr (.inr (.inl ⟨hbusy, hstatus⟩))
    · exact .inr (.inr (.inr (.inl ⟨hbusy, k, hstatus⟩)))
  | wait => exact .inl rfl
  | access hm hp hreset =>
    obtain ⟨u, r, hu, haccess, -⟩ := busAccess_effect _ (atInput _ s)
    rw [haccess]
    cases hu with
    | same | drawn | length | stored => exact .inl rfl
    | dropped hbusy => exact .inr (.inr (.inr (.inr (.inl ⟨hbusy, rfl⟩))))
    | accepted hidle => exact .inr (.inl ⟨hidle, rfl⟩)
  | assertReset => exact .inr (.inr (.inr (.inr (.inr ⟨rfl, status_reset_word⟩))))
  | releaseReset => exact .inl rfl

/-- Settles O57: the engine keeps the host's side, and an access keeps OBUF. -/
theorem whoWritesWhat : Obligations.WhoWritesWhat := by
  intro s t h
  cases step_moves h with
  | engine hm h =>
    obtain ⟨hcmd, hlen, hibufSz, hobufSz, hibuf, -⟩ := engineStep_keepsHostSide h
    exact ⟨hibufSz, hobufSz, fun _ => ⟨hcmd, hlen, hibuf⟩, fun hm' => Bool.noConfusion (hm.symm.trans hm')⟩
  | wait => exact ⟨rfl, rfl, fun _ => ⟨rfl, rfl, fun _ => rfl⟩, fun _ _ _ => rfl⟩
  | access hm hp hreset =>
    obtain ⟨u, r, hu, haccess, -⟩ := busAccess_effect _ (atInput _ s)
    rw [haccess]
    exact ⟨hu.ibufSz, hu.obufSz, fun hm' => Bool.noConfusion (hm.symm.trans hm'), fun _ _ a => hu.obufAt a⟩
  | assertReset hm hp =>
    exact ⟨rfl, rfl, fun hm' => Bool.noConfusion (hm.symm.trans hm'), fun _ hhead => by simp [hp] at hhead⟩
  | releaseReset hm hp =>
    exact ⟨rfl, rfl, fun hm' => Bool.noConfusion (hm.symm.trans hm'), fun _ _ _ => rfl⟩

/-- Settles O58: each kind of step, with what it takes and what it answers. -/
theorem accessesAreAnsweredInOrder : Obligations.AccessesAreAnsweredInOrder := by
  intro s t h
  cases step_moves h with
  | engine hm h =>
    obtain ⟨-, -, -, -, -, -, hpending, -, hresponses⟩ := engineStep_keepsHostSide h
    exact ⟨fun _ => ⟨hpending, hresponses⟩, fun hm' => Bool.noConfusion (hm.symm.trans hm'),
      fun _ _ hm' => Bool.noConfusion (hm.symm.trans hm')⟩
  | wait hm hp =>
    exact ⟨fun hm' => Bool.noConfusion (hm.symm.trans hm'), fun _ => by simp [hp], fun _ _ _ hp' => by simp [hp] at hp'⟩
  | @access hm a rest hp hreset =>
    obtain ⟨u, r, hu, haccess, hdata⟩ := busAccess_effect a (atInput rest s)
    rw [haccess]
    refine ⟨fun hm' => Bool.noConfusion (hm.symm.trans hm'), fun _ => ?_, fun a' rest' _ hp' => ⟨r, ?_, ?_⟩⟩
    · rw [hp]
      exact hu.pending
    · exact congrArg (· ++ [r]) hu.responses
    · rw [hp] at hp'
      obtain ⟨rfl, -⟩ : a = a' ∧ rest = rest' := by simpa using hp'
      exact hdata
  | assertReset hm hp | releaseReset hm hp =>
    exact ⟨fun hm' => Bool.noConfusion (hm.symm.trans hm'), fun _ => by rw [hp]; rfl,
      fun _ _ _ hp' => by simp [hp] at hp'⟩

/-- Settles O50: the registers' reset values; a capacity fits its register. -/
theorem resetRegisterValues : Obligations.ResetRegisterValues :=
  ⟨rfl, status_reset_word, rfl, rfl, rfl, rfl, ofNat_bytes_toNat _, ofNat_bytes_toNat _,
    rfl, fun _ => rfl, fun _ => rfl⟩

/-! The invariant (10_state.md R24 to R27, R36, R46, R47). -/

/-- The invariant does not speak of the host's inputs, the turns, the responses or the draws. -/
theorem inv_withEnvironment {s : State} (h : s.Inv) (pending : List Input) (schedule : List Agent)
    (responses : List Response) (draws : Nat) :
    State.Inv { s with pending := pending, schedule := schedule, responses := responses, draws := draws } :=
  { h with }

theorem takeTurn_inv {s : State} (h : s.Inv) : s.takeTurn.Inv := inv_withEnvironment h _ _ _ _

theorem respond_inv {s : State} (h : s.Inv) (r : Response) : (s.respond r).Inv := inv_withEnvironment h _ _ _ _

theorem atInput_inv {s : State} (h : s.Inv) (rest : List Input) : (atInput rest s).Inv :=
  inv_withEnvironment h _ _ _ _

/-- A state with every register at its reset value and no buffer byte known (70_reset_and_hazards.md R220, R221). -/
theorem inv_of_reset_registers {s : State} (hcmd : s.cmd = 0) (hstatus : s.status = Status.reset) (hinLen : s.inLen = 0)
    (houtLen : s.outLen = 0) (hresult : s.result = 0) (hibuf : s.ibuf = []) (hobuf : s.obuf = [])
    (hdp : s.dp = Datapath.reset) : s.Inv where
  status_legal := hstatus ▸ Status.reset_legal
  busy_results := by simp [hstatus]
  err_results := by simp [hstatus]
  one_result := .inl houtLen
  no_result _ := ⟨houtLen, hresult⟩
  outLen_le := by simp [houtLen]
  result_lt := by simp [hresult]
  busy_fetch := by simp [hstatus]
  output_known := by simp [houtLen]
  ibuf_wf := by simp [hibuf]
  ibuf_within := by simp [hibuf]
  obuf_wf := by simp [hobuf]
  obuf_within := by simp [hobuf]
  reset_values _ := ⟨hcmd, hstatus, hinLen, houtLen, hresult⟩
  datapath_range := hdp ▸ Datapath.reset_inRange _

/-- Settles O52: `State.reset` has every register at its reset value. -/
theorem resetMeetsTheInvariant : Obligations.ResetMeetsTheInvariant :=
  inv_of_reset_registers rfl rfl rfl rfl rfl rfl rfl rfl

/-- R196: an error leaves no result. -/
theorem raise_inv {s : State} (k : ErrKind) (hb : s.BuffersOk) (hreset : s.resetLine = false) : (s.raise k).Inv where
  status_legal := Status.failed_legal s.status k
  busy_results := by simp
  err_results := by simp
  one_result := .inl rfl
  no_result _ := ⟨rfl, rfl⟩
  outLen_le := Nat.zero_le _
  result_lt := by simp
  busy_fetch := by simp
  output_known := by simp
  ibuf_wf := hb.ibuf_wf
  ibuf_within := hb.ibuf_within
  obuf_wf := hb.obuf_wf
  obuf_within := hb.obuf_within
  reset_values := by simp [hreset]
  datapath_range := Datapath.unspecified_inRange _ _ _

theorem completed_legal {f : Status} (herr : f.err = false) (hcode : f.errcode = 0) : f.completed.Legal := by
  constructor <;> simp [herr, hcode]

/-- R94: a completion leaves the result that it finds. -/
theorem complete_inv {s : State} (hb : s.BuffersOk) (hreset : s.resetLine = false) (herr : s.status.err = false)
    (hcode : s.status.errcode = 0) (hone : s.outLen = 0 ∨ s.result = 0) (hlen : s.outLen.toNat ≤ s.obufSz.bytes)
    (hresult : s.result.toNat < 256)
    (hknown : ∀ a, a < s.outLen.toNat → (Memory.read s.obuf a).isSome = true) : s.complete.Inv where
  status_legal := completed_legal herr hcode
  busy_results := by simp
  err_results := by simp [herr]
  one_result := hone
  no_result := by simp
  outLen_le := hlen
  result_lt := hresult
  busy_fetch := by simp
  output_known := hknown
  ibuf_wf := hb.ibuf_wf
  ibuf_within := hb.ibuf_within
  obuf_wf := hb.obuf_wf
  obuf_within := hb.obuf_within
  reset_values := by simp [hreset]
  datapath_range := Datapath.unspecified_inRange _ _ _

/-- What a buffer command has written so far: OBUF is in its canonical form, and known below OUT_POS (R47). -/
structure OutputHeld (s : State) : Prop where
  wf : Memory.wf s.obuf = true
  within : Memory.within s.obufSz.bytes s.obuf = true
  outPos_le : s.dp.outPos.toNat ≤ s.obufSz.bytes
  known : ∀ a, a < s.dp.outPos.toNat → (Memory.read s.obuf a).isSome = true

theorem OutputHeld.emit {s : State} (h : OutputHeld s) (v : Byte) (hroom : s.dp.outPos.toNat < s.obufSz.bytes) :
    OutputHeld (s.emit v) := by
  obtain ⟨-, hsize, -⟩ := bytes_bounds s.obufSz
  have hpos : (s.emit v).dp.outPos.toNat = s.dp.outPos.toNat + 1 := by
    rw [State.emit_dp]
    bv_omega
  refine ⟨Memory.wf_write _ v h.wf, Memory.within_write v hroom h.within, hpos ▸ hroom, fun a ha => ?_⟩
  rw [State.emit_obuf, Memory.read_write]
  split
  · rfl
  · exact h.known a (by omega)

theorem OutputHeld.emitAll {s : State} (h : OutputHeld s) {group : List Byte}
    (hroom : s.dp.outPos.toNat + group.length ≤ s.obufSz.bytes) : OutputHeld (s.emitAll group) := by
  induction group generalizing s with
  | nil => exact h
  | cons v rest ih =>
    obtain ⟨-, hsize, -⟩ := bytes_bounds s.obufSz
    rw [List.length_cons] at hroom
    refine ih (h.emit v (by omega)) ?_
    rw [State.emit_dp, State.emit_obufSz]
    bv_omega

theorem OutputHeld.consumed {width : Nat} {s u : State} (h : OutputHeld s) (hu : Consumed width s u) :
    OutputHeld u := by
  have hsize := engineOnly_obufSz hu.engineOnly
  have hpos := congrArg BitVec.toNat hu.outPos
  exact ⟨hu.obuf ▸ h.wf, hsize ▸ hu.obuf ▸ h.within, hsize ▸ hpos ▸ h.outPos_le,
    fun a ha => hu.obuf ▸ h.known a (hpos ▸ ha)⟩

/-- At acceptance OUT_POS is 0. -/
theorem outputHeld_of_accepted {s : State} (hs : Accepted s) : OutputHeld s := by
  obtain ⟨-, -, hout⟩ := hs.1.busy_fetch hs.2
  exact ⟨hs.1.obuf_wf, hs.1.obuf_within, by simp [hout], by simp [hout]⟩

/-- R94: a buffer command completes with the output that it holds. -/
theorem completeBuffer_inv {s u : State} (hs : Accepted s) (hreset : s.resetLine = false) (hu : EngineOnly s u)
    (hheld : OutputHeld u) : u.completeBuffer.Inv := by
  obtain ⟨herr, hcode, -, hresult⟩ := cleared_of_accepted hs
  have hstatus := engineOnly_status hu
  have hzero : u.result = 0 := (engineOnly_result hu).trans hresult
  have hcount : (u.dp.outPos.setWidth 32).toNat = u.dp.outPos.toNat := BitVec.toNat_setWidth_of_le (by decide)
  have hline : u.resetLine = false := by rw [hu]; exact hreset
  have hwf : Memory.wf u.ibuf = true := by rw [hu]; exact hs.1.ibuf_wf
  have hwithin : Memory.within u.ibufSz.bytes u.ibuf = true := by rw [hu]; exact hs.1.ibuf_within
  exact complete_inv (s := { u with outLen := u.dp.outPos.setWidth 32 }) ⟨hwf, hwithin, hheld.wf, hheld.within⟩ hline
    (hstatus ▸ herr) (hstatus ▸ hcode) (.inr hzero) (hcount ▸ hheld.outPos_le) (by simp [hzero])
    (hcount ▸ hheld.known)

/-- A lookup's byte is the only result. -/
theorem completeLookup_inv {s : State} (hs : Accepted s) (hreset : s.resetLine = false) (v : Byte) :
    (s.completeLookup v).Inv := by
  obtain ⟨herr, hcode, hlen, -⟩ := cleared_of_accepted hs
  have hb := hs.1.buffers
  have hv : (v.setWidth 32).toNat < 256 := by
    rw [BitVec.toNat_setWidth_of_le (by decide)]
    exact v.isLt
  exact complete_inv (s := { s with result := v.setWidth 32 }) ⟨hb.ibuf_wf, hb.ibuf_within, hb.obuf_wf, hb.obuf_within⟩
    hreset herr hcode (.inl hlen) hs.1.outLen_le hv hs.1.output_known

/-- NOP leaves the results of acceptance, which are 0. -/
theorem complete_inv_of_accepted {s : State} (hs : Accepted s) (hreset : s.resetLine = false) : s.complete.Inv := by
  obtain ⟨herr, hcode, hlen, -⟩ := cleared_of_accepted hs
  exact complete_inv hs.1.buffers hreset herr hcode (.inl hlen) hs.1.outLen_le hs.1.result_lt hs.1.output_known

theorem exec_inv {i : Instr} {s t : State} (hs : Accepted s) (hreset : s.resetLine = false)
    (h : exec i s = .next t) : t.Inv := by
  have hb := hs.1.buffers
  cases exec_commandEnds h with
  | nop => exact complete_inv_of_accepted hs hreset
  | answer hi v => exact completeLookup_inv hs hreset v
  | lookupError hi k => exact raise_inv k hb hreset
  | bufferError hi k => exact raise_inv k ⟨hb.ibuf_wf, hb.ibuf_within, rfl, rfl⟩ hreset
  | output hi hu =>
    obtain ⟨f, hf⟩ := exists_contract hi
    obtain ⟨width, group, -, hruns, -⟩ := exists_runsGroups hf
    have hgroup : ∀ v w g, EngineOnly s v ∧ OutputHeld v → Consumed width v w →
        w.dp.outPos.toNat + g.length ≤ w.obufSz.bytes → EngineOnly s (w.emitAll g) ∧ OutputHeld (w.emitAll g) :=
      fun v w g ⟨hengine, hheld⟩ hw hroom => ⟨(hengine.trans hw.engineOnly).trans (emitAll_engineOnly g w),
        (hheld.consumed hw).emitAll hroom⟩
    obtain ⟨u, ⟨hengine, hheld⟩, hu⟩ := hruns.keeps hgroup ⟨.refl s, outputHeld_of_accepted hs⟩ h rfl
    rw [hu]
    exact completeBuffer_inv hs hreset hengine hheld

theorem engineStep_inv {s t : State} (hs : Accepted s) (hreset : s.resetLine = false) (h : engineStep s = .next t) :
    t.Inv := by
  rcases engineStep_cases h with ⟨y, -, ht⟩ | ⟨i, -, ht⟩
  · obtain rfl := Host.Outcome.next.inj ht
    exact raise_inv _ hs.1.buffers hreset
  · exact exec_inv hs hreset ht.symm

theorem droppedWrite_legal {f : Status} (h : f.Legal) : f.droppedWrite.Legal := { h with }

/-- A store to a word in IBUF's capacity keeps the canonical form. -/
theorem storeIbuf_wf_within {s : State} (hwf : Memory.wf s.ibuf = true)
    (hwithin : Memory.within s.ibufSz.bytes s.ibuf = true) {first : Nat} (hfirst : first + 3 < s.ibufSz.bytes)
    (d : Word) : Memory.wf (s.storeIbuf first d).ibuf = true ∧
      Memory.within s.ibufSz.bytes (s.storeIbuf first d).ibuf = true := by
  unfold State.storeIbuf
  exact ⟨Memory.wf_write _ _ (Memory.wf_write _ _ (Memory.wf_write _ _ (Memory.wf_write _ _ hwf))),
    Memory.within_write _ hfirst (Memory.within_write _ (by omega) (Memory.within_write _ (by omega)
      (Memory.within_write _ (by omega) hwithin)))⟩

theorem AccessEffect.inv {s u : State} (hu : AccessEffect s u) (h : s.Inv) (hreset : s.resetLine = false) : u.Inv := by
  cases hu with
  | same => exact h
  | drawn => exact inv_withEnvironment h _ _ _ _
  | dropped => exact { h with
      status_legal := droppedWrite_legal h.status_legal
      reset_values := fun hline => Bool.noConfusion (hreset.symm.trans hline) }
  | accepted _ w => exact State.accept_inv w h.buffers h.datapath_range hreset
  | length => exact { h with reset_values := fun hline => Bool.noConfusion (hreset.symm.trans hline) }
  | stored _ hfirst d =>
    obtain ⟨hwf, hwithin⟩ := storeIbuf_wf_within h.ibuf_wf h.ibuf_within hfirst d
    exact { h with ibuf_wf := hwf, ibuf_within := hwithin }

theorem busAccess_inv {s : State} (h : s.Inv) (hreset : s.resetLine = false) (a : Access) : (s.busAccess a).Inv := by
  obtain ⟨u, r, hu, haccess, -⟩ := busAccess_effect a s
  rw [haccess]
  exact respond_inv (hu.inv h hreset) r

theorem releaseReset_inv {s : State} (h : s.Inv) : s.releaseReset.Inv := { h with reset_values := by simp }

/-- Settles O53: the engine's step starts from an accepted command; an access, an assertion and a release are the
bus's and the line's. -/
theorem stepKeepsTheInvariant : Obligations.StepKeepsTheInvariant := by
  intro s t hinv h
  cases step_moves h with
  | engine hm h =>
    obtain ⟨hbusy, hreset⟩ := engineMoves_busy hm
    exact engineStep_inv ⟨takeTurn_inv hinv, hbusy⟩ hreset h
  | wait => exact hinv
  | access _ _ hreset => exact busAccess_inv (atInput_inv hinv _) hreset _
  | assertReset => exact inv_of_reset_registers rfl rfl rfl rfl rfl rfl rfl rfl
  | releaseReset => exact releaseReset_inv (atInput_inv hinv _)

/-! Runs, and the end of a command (40_control.md R92; 70_reset_and_hazards.md R228). -/

theorem core_run_succ (M : Host.Core) {s t : M.State} (h : M.step s = .next t) (k : Nat) :
    M.run (k + 1) s = M.run k t := by
  rw [Host.Core.run, h]

/-- A step that goes on comes first in a run. -/
theorem run_succ {s t : State} (h : step s = .next t) (k : Nat) :
    Sys2Proof.core.run (k + 1) s = Sys2Proof.core.run k t :=
  core_run_succ Sys2Proof.core h k

/-- A busy engine waits only for a host input that has the turn (log 7). -/
theorem host_goes_first {s : State} (hbusy : s.status.busy = true) (hreset : s.resetLine = false)
    (hm : s.engineMoves = false) :
    ∃ e rest turns, s.pending = e :: rest ∧ s.schedule = .host :: turns := by
  simp only [State.engineMoves, hbusy, hreset, Bool.not_false, Bool.and_self, Bool.true_and, Bool.or_eq_false_iff,
    List.isEmpty_eq_false_iff, bne_eq_false_iff_eq] at hm
  obtain ⟨hpending, hturn⟩ := hm
  obtain ⟨e, rest, hp⟩ := List.exists_cons_of_ne_nil hpending
  obtain ⟨turns, hturns⟩ := List.head?_eq_some_iff.1 hturn
  exact ⟨e, rest, turns, hp, hturns⟩

/-- A host input at its turn while the engine is busy either leaves the command running, with a turn used up, or
abandons it. -/
theorem step_of_host_turn {s : State} {e : Input} {rest : List Input} {turns : List Agent}
    (hbusy : s.status.busy = true) (hreset : s.resetLine = false) (hm : s.engineMoves = false)
    (hp : s.pending = e :: rest) (hturns : s.schedule = .host :: turns) :
    ∃ t, step s = .next t ∧
      (t.status.busy = false ∨ (t.status.busy = true ∧ t.resetLine = false ∧ t.schedule = turns)) := by
  have hleft : (atInput rest s).schedule = turns := by simp [atInput, hbusy, hturns]
  rw [step_atInput hm hp]
  cases e with
  | access a =>
    obtain ⟨u, r, hu, haccess, -⟩ := busAccess_effect a (atInput rest s)
    rw [applyInput_access (s := atInput rest s) a hreset, haccess]
    exact ⟨_, rfl, .inr ⟨hu.busy hbusy, hu.resetLine.trans hreset, hu.schedule.trans hleft⟩⟩
  | assertReset => exact ⟨_, rfl, .inl rfl⟩
  | releaseReset => exact ⟨_, rfl, .inr ⟨hbusy, rfl, hleft⟩⟩

/-- Settles O54, by induction on the turns: each of the host's uses one up, and the engine's first ends the command. -/
theorem everyCommandEnds : Obligations.EveryCommandEnds := by
  intro s hbusy hreset
  generalize hturns : s.schedule = turns
  induction turns generalizing s with
  | nil =>
    have hm : s.engineMoves = true := by simp [State.engineMoves, hbusy, hreset, hturns]
    obtain ⟨t, ht⟩ := engineStep_next s.takeTurn
    exact ⟨1, t, Nat.le_refl _, run_succ ((step_engine hm).trans ht) 0, engineStep_idle ht⟩
  | cons agent turns ih =>
    rw [List.length_cons]
    cases hm : s.engineMoves with
    | true =>
      obtain ⟨t, ht⟩ := engineStep_next s.takeTurn
      exact ⟨1, t, by omega, run_succ ((step_engine hm).trans ht) 0, engineStep_idle ht⟩
    | false =>
      obtain ⟨e, rest, turns', hp, hturns'⟩ := host_goes_first hbusy hreset hm
      obtain ⟨-, rfl⟩ := List.cons.inj (hturns.symm.trans hturns')
      obtain ⟨t, ht, hidle | ⟨hbusy', hreset', hschedule⟩⟩ := step_of_host_turn hbusy hreset hm hp hturns'
      · exact ⟨1, t, by omega, run_succ ht 0, hidle⟩
      · obtain ⟨k, u, hk, hrun, hu⟩ := ih t hbusy' hreset' hschedule
        exact ⟨k + 1, u, by omega, (run_succ ht k).trans hrun, hu⟩

/-! A second command written early (95_test_vectors.md P4; 70_reset_and_hazards.md R230). -/

/-- The state that the acceptance of a word leaves, in a state that meets the invariant. -/
theorem accepted_of_write {s : State} (hinv : s.Inv) (hreset : s.resetLine = false) (w : Word) (rest : List Input)
    (r : Response) : Accepted ((State.accept w { s with pending := rest }).respond r) :=
  ⟨respond_inv (State.accept_inv w (inv_withEnvironment hinv rest s.schedule s.responses s.draws).buffers
    hinv.datapath_range hreset) r, rfl⟩

theorem engineStep_legal {s : State} {i : Instr} (h : decode s.dp.cur = .legal i) : engineStep s = exec i s := by
  rw [engineStep, h]

/-- ENC45 of "AB" on the engine: any buffer holds the three characters. -/
theorem enc45_AB_succeedsWith {s : State} (hs : Accepted s) (hlen : s.inLen = 2) (h0 : s.ibufAt 0 = 0x41)
    (h1 : s.ibufAt 1 = 0x42) : SucceedsWith .enc45 [0x42, 0x42, 0x38] s := by
  obtain ⟨hibuf, -⟩ := bytes_bounds s.ibufSz
  obtain ⟨hobuf, -⟩ := bytes_bounds s.obufSz
  have hcount : s.inLen.toNat = 2 := by rw [hlen]; rfl
  have hinput : s.input = [65, 66] := by
    rw [State.input, hcount]
    simp [List.range_succ, h0, h1]
  refine enc45_runsGroups.succeedsWith hs (by omega) ?_
  rw [hinput]
  obtain ⟨hout, -⟩ := enc45_eq_ok_iff.1 enc45_65_66
  exact enc45_eq_ok_iff.2 ⟨hout, (fits_some _ _).2 (by simp only [List.length_cons, List.length_nil]; omega)⟩

/-- What OBUF holds after ENC45 of "AB". -/
def HoldsBB8 (t : State) : Prop := t.obufAt 0 = 0x42 ∧ t.obufAt 1 = 0x42 ∧ t.obufAt 2 = 0x38

/-- The engine's step on ENC45 of "AB". -/
theorem engineStep_enc45_AB {s : State} (hs : Accepted s) (hcur : s.dp.cur = encode .enc45) (hlen : s.inLen = 2)
    (h0 : s.ibufAt 0 = 0x41) (h1 : s.ibufAt 1 = 0x42) :
    ∃ t, engineStep s = .next t ∧ t.status = s.status.completed ∧ t.outLen = 3 ∧ t.result = 0 ∧ HoldsBB8 t ∧
      KeepsHostSide s t := by
  have hlegal : decode s.dp.cur = .legal .enc45 := by
    rw [hcur]
    exact decodeEncodeAgree .enc45 rfl
  obtain ⟨t, hexec, hflags, -, -, ⟨hcount, hbytes, -⟩, hresult, hkept⟩ := enc45_AB_succeedsWith hs hlen h0 h1
  exact ⟨t, (engineStep_legal hlegal).trans hexec, hflags, BitVec.eq_of_toNat_eq hcount, hresult,
    ⟨hbytes 0 (by simp), hbytes 1 (by simp), hbytes 2 (by simp)⟩, hkept⟩

theorem encode_enc45 : encode .enc45 = 0x00000001 := by decide

theorem encode_nop : encode .nop = 0x00000000 := by decide

/-- The engine, with nothing else to go first, completes NOP (40_control.md R95). -/
theorem step_nop {s : State} (hbusy : s.status.busy = true) (hreset : s.resetLine = false) (hp : s.pending = [])
    (hcur : s.dp.cur = encode .nop) : step s = .next s.takeTurn.complete := by
  have hlegal : decode s.takeTurn.dp.cur = .legal .nop := by
    rw [State.takeTurn_dp, hcur]
    exact decodeEncodeAgree .nop rfl
  exact (step_engine (engineMoves_of_no_input hbusy hreset hp)).trans (engineStep_legal hlegal)

/-- ENC45 of "AB" has been accepted, and a write of NOP waits. -/
structure NopWaits (s : State) : Prop where
  accepted : Accepted s
  flags : s.status = { busy := true, done := false, err := false, dropped := false, errcode := 0 }
  cmd : s.cmd = encode .enc45
  inLen : s.inLen = 2
  byte0 : s.ibufAt 0 = 0x41
  byte1 : s.ibufAt 1 = 0x42
  resetLine : s.resetLine = false
  pending : s.pending = [.access (wr 0 (encode .nop))]

theorem NopWaits.cur {s : State} (h : NopWaits s) : s.dp.cur = encode .enc45 := by
  obtain ⟨hcur, -⟩ := h.accepted.1.busy_fetch h.accepted.2
  exact hcur.trans h.cmd

/-- The host's turn: NOP is dropped, then ENC45 completes. -/
theorem NopWaits.run_dropped {s : State} (h : NopWaits s) (hturn : s.schedule.head? = some .host) :
    ∃ t, Sys2Proof.core.run 2 s = .next t ∧ t.status.word = 0x0000000A ∧ t.outLen = 3 ∧ t.cmd = encode .enc45 ∧
      t.result = 0 ∧ t.inLen = 2 ∧ HoldsBB8 t := by
  have hbusy := h.accepted.2
  have hm : s.engineMoves = false := by simp [State.engineMoves, h.pending, hturn]
  have hdrop := step_wr_cmd_busy hbusy h.resetLine h.pending hm
  have hinv := stepKeepsTheInvariant _ _ h.accepted.1 hdrop
  generalize hu : (State.dropWrite { s.takeTurn with pending := [] }).respond okWrite = u at hdrop hinv
  have hflags : u.status = s.status.droppedWrite := by rw [← hu]; rfl
  have hbusy' : u.status.busy = true := by rw [hflags]; exact hbusy
  have hm' : u.engineMoves = true :=
    engineMoves_of_no_input hbusy' (by rw [← hu]; exact h.resetLine) (by rw [← hu]; rfl)
  obtain ⟨t, hstep, hstatus, hlen, hresult, hobuf, hcmd, hinLen, -⟩ :=
    engineStep_enc45_AB (s := u.takeTurn) ⟨takeTurn_inv hinv, hbusy'⟩ (by rw [← hu]; exact h.cur)
      (by rw [← hu]; exact h.inLen) (by rw [← hu]; exact h.byte0) (by rw [← hu]; exact h.byte1)
  refine ⟨t, (run_succ hdrop 1).trans (run_succ ((step_engine hm').trans hstep) 0), ?_, hlen, ?_, hresult, ?_, hobuf⟩
  · rw [hstatus, State.takeTurn_status, hflags, h.flags]
    decide
  · rw [hcmd, ← hu]
    exact h.cmd
  · rw [hinLen, ← hu]
    exact h.inLen

/-- The engine's turn: ENC45 completes, then NOP is accepted and completes; it leaves OBUF. -/
theorem NopWaits.run_accepted {s : State} (h : NopWaits s) (hturn : s.schedule.head? ≠ some .host) :
    ∃ t, Sys2Proof.core.run 3 s = .next t ∧ t.status.word = 0x00000002 ∧ t.outLen = 0 ∧ t.cmd = encode .nop ∧
      t.result = 0 ∧ t.inLen = 2 ∧ HoldsBB8 t := by
  have hbusy := h.accepted.2
  have hm : s.engineMoves = true := by simp [State.engineMoves, h.resetLine, hbusy, hturn]
  obtain ⟨u, hstep, hstatus, -, -, hobuf, hcmd, hinLen, -, -, -, hreset, hpending, -⟩ :=
    engineStep_enc45_AB (s := s.takeTurn) ⟨takeTurn_inv h.accepted.1, hbusy⟩ h.cur h.inLen h.byte0 h.byte1
  have hidle : u.status.busy = false := by rw [hstatus]; rfl
  have hreset' : u.resetLine = false := hreset.trans h.resetLine
  have haccept := step_wr_cmd_idle hidle hreset' (hpending.trans h.pending)
  have hnop := step_nop (s := (State.accept (encode .nop) { u with pending := [] }).respond okWrite) rfl hreset' rfl rfl
  refine ⟨_, (run_succ ((step_engine hm).trans hstep) 2).trans ((run_succ haccept 1).trans (run_succ hnop 0)),
    ?_, rfl, rfl, rfl, hinLen.trans h.inLen, hobuf⟩
  show Status.word { busy := false, done := true, err := false, dropped := false, errcode := 0 } = 0x00000002
  decide

/-- Settles O59: the write of NOP reaches a busy engine and is dropped, or an idle one and is accepted. -/
theorem earlySecondCommand : Obligations.EarlySecondCommand := by
  intro s hinv hidle hreset hlen h0 h1 hp
  have haccept := step_wr_cmd_idle hidle hreset hp
  have hwaits : NopWaits ((State.accept (encode .enc45)
      { s with pending := [.access (wr 0 (encode .nop))] }).respond okWrite) :=
    ⟨accepted_of_write hinv hreset _ _ _, rfl, rfl, hlen, h0, h1, hreset, rfl⟩
  refine ⟨fun hturn => ?_, fun hturn => ?_⟩
  · obtain ⟨t, hrun, hword, houtLen, hcmd, hresult, hinLen, hobuf⟩ := hwaits.run_dropped hturn
    exact ⟨t, (run_succ haccept 2).trans hrun, hword, houtLen, hcmd.trans encode_enc45, hresult, hinLen, hobuf⟩
  · obtain ⟨t, hrun, hword, houtLen, hcmd, hresult, hinLen, hobuf⟩ := hwaits.run_accepted hturn
    exact ⟨t, (run_succ haccept 3).trans hrun, hword, houtLen, hcmd.trans encode_nop, hresult, hinLen, hobuf⟩

/-! WAIT (30_encoding.md R82; 70_reset_and_hazards.md R226, R228). -/

/-- STATUS is read whatever BUSY is, and reading it does nothing else. -/
theorem busAccess_rd_status (s : State) : s.busAccess (rd 4) = s.respond (okRead s.status.word) :=
  onlyResponds_rd_register s (x := .status) (by decide) (by decide) rfl

theorem waitEnds_iff (f : Status) : waitEnds f.word = !f.busy := by
  obtain ⟨hbusy, -⟩ := status_word_low_bits f
  rw [waitEnds, hbusy]

theorem hostTurn_idle {s : State} (hidle : s.status.busy = false) : s.hostTurn = s := by
  simp [State.hostTurn, hidle]

theorem hostTurn_busy {s : State} (hbusy : s.status.busy = true) : s.hostTurn = s.takeTurn := by
  simp [State.hostTurn, hbusy]

section
variable {s u : State} {a : Access} {r : Response}

/-- The host's access at its turn, or while the engine is idle. -/
theorem hostAccess_eq (hp : s.pending = []) (hreset : s.resetLine = false) (hm : (s.issue a).engineMoves = false)
    (h : s.hostTurn.busAccess a = u.respond r) : hostAccess a s = some (u.respond r, r) := by
  rw [hostAccess_at_turn hp hreset hm, h]
  simp

theorem hostAccess_idle (hp : s.pending = []) (hreset : s.resetLine = false) (hidle : s.status.busy = false)
    (h : s.busAccess a = u.respond r) : hostAccess a s = some (u.respond r, r) :=
  hostAccess_eq hp hreset (engineMoves_idle hidle) ((hostTurn_idle hidle).symm ▸ h)

theorem hostRead_of_access {A : BitVec 18} {t : State} {w : Word} (h : hostAccess (rd A) s = some (t, okRead w)) :
    hostRead A s = some (t, w) := by
  simp [hostRead, h, okRead]

/-- An engine that is idle lets the one pending access go. -/
theorem settle_one_idle (hidle : s.status.busy = false) (hreset : s.resetLine = false)
    (hp : s.pending = [.access a]) : settle 1 s = some (State.busAccess a { s with pending := [] }) := by
  have hstep : step s = .next (State.busAccess a { s with pending := [] }) := by
    rw [step_atInput (engineMoves_idle hidle) hp, applyInput_access (s := atInput [] s) a hreset, atInput,
      if_neg (by simp [hidle])]
  rw [settle_next 0 (by simp [hp]) hstep, settle_nil 0 (busAccess_pending _ _)]

/-- The host's access when the engine moves first. -/
theorem hostAccess_after_engine {v : State} (hp : s.pending = []) (hreset : s.resetLine = false)
    (hm : (s.issue a).engineMoves = true) (hu : engineStep (s.issue a).takeTurn = .next u)
    (h : State.busAccess a { u with pending := [] } = v.respond r) : hostAccess a s = some (v.respond r, r) := by
  obtain ⟨-, -, -, -, -, hline, hpending, -⟩ := engineStep_keepsHostSide hu
  have hpending' : u.pending = [.access a] := hpending.trans (by simp [hp])
  rw [hostAccess_after_step hp ((step_engine hm).trans hu),
    settle_one_idle (engineStep_idle hu) (hline.trans hreset) hpending', h]
  simp

end

/-- The state in which WAIT's last read finds the engine: the one it starts in, if that is idle, or else what the
engine's step leaves, from a state that differs in the turns, the responses and the read that is pending. -/
inductive WaitFinds (s : State) : State → Prop where
  | idle (hidle : s.status.busy = false) : WaitFinds s s
  | ended {turns : List Agent} {responses : List Response} {pending : List Input} {u : State}
      (h : engineStep { s with pending := pending, schedule := turns, responses := responses } = .next u) :
      WaitFinds s { u with pending := [] }

theorem WaitFinds.idle_after {s u : State} (h : WaitFinds s u) : u.status.busy = false := by
  cases h with
  | idle hidle => exact hidle
  | ended h => exact (engineStep_idle h :)

theorem WaitFinds.pending {s u : State} (h : WaitFinds s u) (hp : s.pending = []) : u.pending = [] := by
  cases h with
  | idle => exact hp
  | ended => rfl

/-- Reading BUSY = 1 at the host's turn changes nothing that the engine's step depends on. -/
theorem WaitFinds.of_read {s u : State} (hbusy : s.status.busy = true) {r : Response}
    (h : WaitFinds (s.takeTurn.respond r) u) : WaitFinds s u := by
  cases h with
  | idle hidle => exact Bool.noConfusion (hbusy.symm.trans hidle)
  | ended h => exact .ended h

/-- A pass of WAIT while the engine is idle is the last one. -/
theorem waitLoop_last {s t : State} {w : Word} (n : Nat) (hread : hostRead 4 s = some (t, w))
    (hends : waitEnds w = true) : waitLoop (n + 1) s = some t := by
  have hread' : hostRead waitRead.offset s = some (t, w) := hread
  simp [waitLoop, hread', hends]

theorem waitLoop_again {s t : State} {w : Word} (n : Nat) (hread : hostRead 4 s = some (t, w))
    (hagain : waitEnds w = false) : waitLoop (n + 1) s = waitLoop n t := by
  have hread' : hostRead waitRead.offset s = some (t, w) := hread
  simp [waitLoop, hread', hagain]

theorem waitLoop_idle {s : State} (n : Nat) (hidle : s.status.busy = false) (hreset : s.resetLine = false)
    (hp : s.pending = []) : waitLoop (n + 1) s = some (s.respond (okRead s.status.word)) := by
  have haccess := hostAccess_idle hp hreset hidle (busAccess_rd_status s)
  exact waitLoop_last n (hostRead_of_access haccess) (by rw [waitEnds_iff, hidle]; rfl)

/-- The engine moves before the read: the read finds the command ended. -/
theorem waitLoop_after_engine {s : State} (n : Nat) (hreset : s.resetLine = false) (hp : s.pending = [])
    (hm : (s.issue (rd 4)).engineMoves = true) :
    ∃ u, WaitFinds s u ∧ waitLoop (n + 1) s = some (u.respond (okRead u.status.word)) := by
  obtain ⟨u, hu⟩ := engineStep_next (s.issue (rd 4)).takeTurn
  have haccess := hostAccess_after_engine hp hreset hm hu (busAccess_rd_status { u with pending := [] })
  have hends : waitEnds u.status.word = true := by rw [waitEnds_iff, engineStep_idle hu]; rfl
  exact ⟨{ u with pending := [] }, .ended hu, waitLoop_last n (hostRead_of_access haccess) hends⟩

/-- WAIT ends, by induction on the turns: each of the host's uses one up, and the engine's first ends the command. -/
theorem hostWait_finds {s : State} (hreset : s.resetLine = false) (hp : s.pending = []) :
    ∃ u, WaitFinds s u ∧ hostWait s = some (u.respond (okRead u.status.word)) := by
  unfold hostWait
  cases hbusy : s.status.busy with
  | false => exact ⟨s, .idle hbusy, waitLoop_idle _ hbusy hreset hp⟩
  | true =>
    generalize hturns : s.schedule = turns
    induction turns generalizing s with
    | nil => exact waitLoop_after_engine _ hreset hp (by simp [State.engineMoves, hbusy, hreset, hturns])
    | cons agent turns ih =>
      cases agent with
      | engine => exact waitLoop_after_engine _ hreset hp (by simp [State.engineMoves, hbusy, hreset, hturns])
      | host =>
        have hm : (s.issue (rd 4)).engineMoves = false := by simp [State.engineMoves, hturns]
        have haccess := hostAccess_eq hp hreset hm
          ((congrArg (State.busAccess (rd 4)) (hostTurn_busy hbusy)).trans (busAccess_rd_status s.takeTurn))
        have hagain : waitEnds s.status.word = false := by rw [waitEnds_iff, hbusy]; rfl
        obtain ⟨u, hu, hloop⟩ := ih (s := s.takeTurn.respond (okRead s.status.word)) hreset hp hbusy
          (by simp [hturns])
        exact ⟨u, hu.of_read hbusy, (waitLoop_again _ (hostRead_of_access haccess) hagain).trans hloop⟩

/-! The accesses of LOADIN and RUN (30_encoding.md R82). -/

/-- The block after accesses in order. -/
def accessAll (as : List Access) (s : State) : State := as.foldl (fun u a => u.busAccess a) s

theorem accessAll_append (as as' : List Access) (s : State) :
    accessAll (as ++ as') s = accessAll as' (accessAll as s) :=
  List.foldl_append

theorem accessAll_pending (as : List Access) (s : State) : (accessAll as s).pending = s.pending := by
  induction as generalizing s with
  | nil => rfl
  | cons a rest ih => exact (ih (s.busAccess a)).trans (busAccess_pending a s)

theorem target_eq_cmd {s : State} {offset : Nat} (h : s.target offset = some .cmd) : offset = 0 := by
  unfold State.target at h
  split at h
  · cases h
  · split at h
    · cases h
    · unfold registerAt at h
      split at h
      case h_1 => rfl
      all_goals cases h

/-- While BUSY = 0 STATUS is changed by a write to CMD only (10_state.md R32). -/
theorem busAccess_status_idle {s : State} {a : Access} (hidle : s.status.busy = false) (ha : a.offset.toNat ≠ 0) :
    (s.busAccess a).status = s.status := by
  rcases busAccess_cases a s with ⟨r, haccess⟩ | haccess | ⟨d, x, -, hx, -, haccess⟩
  · rw [haccess]
    rfl
  · rw [haccess]
    rfl
  · rw [haccess, State.respond_status]
    cases x with
    | cmd => exact absurd (target_eq_cmd hx) ha
    | inLen | ibufWord =>
      rw [State.writeEffect, guarded_idle _ hidle]
      rfl
    | status | outLen | result | id | ibufSz | obufSz | obufWord => rfl

theorem busAccess_resetLine (a : Access) (s : State) : (s.busAccess a).resetLine = s.resetLine := by
  obtain ⟨u, r, hu, haccess, -⟩ := busAccess_effect a s
  rw [haccess]
  exact hu.resetLine

theorem busAccess_obufSz (a : Access) (s : State) : (s.busAccess a).obufSz = s.obufSz := by
  obtain ⟨u, r, hu, haccess, -⟩ := busAccess_effect a s
  rw [haccess]
  exact hu.obufSz

/-- No access looks at the inputs that wait behind it. -/
theorem busAccess_withPending (a : Access) (s : State) (pending : List Input) :
    State.busAccess a { s with pending := pending } = { s.busAccess a with pending := pending } := by
  have htarget : State.target { s with pending := pending } a.offset.toNat = s.target a.offset.toNat := rfl
  unfold State.busAccess
  rw [htarget]
  split
  · cases s.target a.offset.toNat with
    | none => rfl
    | some x =>
      cases a.op with
      | read =>
        cases x with
        | obufWord first =>
          simp only [State.readTarget]
          split <;> rfl
        | cmd | status | inLen | outLen | result | id | ibufSz | obufSz | ibufWord => rfl
      | write d =>
        cases x with
        | cmd | inLen | ibufWord =>
          simp only [State.writeEffect, State.guarded]
          split <;> rfl
        | status | outLen | result | id | ibufSz | obufSz | obufWord => rfl
  · rfl

/-- A pending access goes while the engine is idle. -/
theorem step_access_idle {s : State} {a : Access} {rest : List Input} (hidle : s.status.busy = false)
    (hreset : s.resetLine = false) (hp : s.pending = .access a :: rest) :
    step s = .next (State.busAccess a { s with pending := rest }) := by
  rw [step_atInput (engineMoves_idle hidle) hp, applyInput_access (s := atInput rest s) a hreset, atInput,
    if_neg (by simp [hidle])]

/-- Pending accesses that do not write CMD, one step each. -/
theorem run_accesses {as : List Access} {rest : List Input} (has : ∀ a ∈ as, a.offset.toNat ≠ 0) {s : State}
    (hidle : s.status.busy = false) (hreset : s.resetLine = false) (hp : s.pending = as.map .access ++ rest) :
    Sys2Proof.core.run as.length s = .next (accessAll as { s with pending := rest }) := by
  induction as generalizing s with
  | nil =>
    have hs : ({ s with pending := rest } : State) = s := by
      cases s
      simpa using hp.symm
    rw [accessAll, List.foldl_nil, hs]
    rfl
  | cons a as ih =>
    obtain ⟨ha, has⟩ := List.forall_mem_cons.1 has
    have hstep := step_access_idle hidle hreset hp
    rw [busAccess_withPending] at hstep
    rw [List.length_cons, run_succ hstep, ih has ?_ ?_ rfl, accessAll, accessAll, List.foldl_cons,
      busAccess_withPending a s rest]
    · exact (congrArg Status.busy (busAccess_status_idle hidle ha)).trans hidle
    · exact (busAccess_resetLine a s).trans hreset

/-- An idle engine lets the host's access go at once. -/
theorem hostAccess_idle_eq {s : State} (a : Access) (hidle : s.status.busy = false) (hreset : s.resetLine = false)
    (hp : s.pending = []) : ∃ r, hostAccess a s = some (s.busAccess a, r) := by
  obtain ⟨u, r, -, haccess, -⟩ := busAccess_effect a s
  exact ⟨r, haccess ▸ hostAccess_idle hp hreset hidle haccess⟩

/-- Accesses that do not write CMD, as the host issues them. -/
theorem hostWrites_idle {as : List Access} (has : ∀ a ∈ as, a.offset.toNat ≠ 0) {s : State}
    (hidle : s.status.busy = false) (hreset : s.resetLine = false) (hp : s.pending = []) :
    hostWrites as s = some (accessAll as s) := by
  induction as generalizing s with
  | nil => rfl
  | cons a as ih =>
    obtain ⟨ha, has⟩ := List.forall_mem_cons.1 has
    obtain ⟨r, haccess⟩ := hostAccess_idle_eq a hidle hreset hp
    rw [hostWrites, haccess, Option.bind_some]
    exact ih has ((congrArg Status.busy (busAccess_status_idle hidle ha)).trans hidle)
      ((busAccess_resetLine a s).trans hreset) ((busAccess_pending a s).trans hp)

/-! What LOADIN leaves. -/

/-- R54: the lane of a word is the byte at its place. -/
theorem laneByte_laneWord (byteAt : Nat → Byte) (first : Nat) {k : Nat} (hk : k < 4) :
    laneByte (laneWord byteAt first) k = byteAt (first + k) := by
  obtain ⟨h0, h1, h2, h3⟩ := laneWord_lanes byteAt first
  have hlane : k = 0 ∨ k = 1 ∨ k = 2 ∨ k = 3 := by omega
  rcases hlane with rfl | rfl | rfl | rfl
  · exact h0
  · exact h1
  · exact h2
  · exact h3

/-- The offset of a word inside a buffer does not wrap. -/
theorem windowOffset_toNat {window k : Nat} (hwindow : window ≤ obufWindow) (hk : 4 * k < 65536) :
    (windowOffset window k).toNat = window + 4 * k := by
  rw [windowOffset, BitVec.toNat_ofNat]
  simp only [obufWindow] at hwindow
  omega

/-- The write of word `k` of LOADIN. -/
def loadWord (bytes : List Byte) (k : Nat) : Access :=
  wr (windowOffset ibufWindow k) (laneWord (fun i => bytes.getD i 0) (4 * k))

theorem loadIn_eq (bytes : List Byte) :
    loadIn bytes = (List.range (wordCount bytes.length)).map (loadWord bytes) ++
      [wr 8 (BitVec.ofNat 32 bytes.length)] := rfl

/-- `n` words of LOADIN are in IBUF; the block is idle as before. -/
structure WordsLoaded (bytes : List Byte) (n : Nat) (s u : State) : Prop where
  inv : u.Inv
  idle : u.status.busy = false
  resetLine : u.resetLine = false
  ibufSz : u.ibufSz = s.ibufSz
  obufSz : u.obufSz = s.obufSz
  bytes : ∀ a, a < 4 * n → u.ibufAt a = bytes.getD a 0

theorem WordsLoaded.next {bytes : List Byte} {n : Nat} {s u : State} (h : WordsLoaded bytes n s u)
    (hn : 4 * n < s.ibufSz.bytes) : WordsLoaded bytes (n + 1) s (u.busAccess (loadWord bytes n)) := by
  obtain ⟨-, hsize, -⟩ := bytes_bounds s.ibufSz
  have hoffset : (windowOffset ibufWindow n).toNat = ibufWindow + 4 * n :=
    windowOffset_toNat (by decide) (by omega)
  have haccess : u.busAccess (loadWord bytes n) =
      (u.storeIbuf (4 * n) (laneWord (fun i => bytes.getD i 0) (4 * n))).respond okWrite :=
    busAccess_wr_ibufWord_idle _ (by rw [hoffset]; simp only [ibufWindow]; omega)
      (target_ibufWindow_add hoffset (h.ibufSz ▸ hn)) h.idle
  refine ⟨busAccess_inv h.inv h.resetLine _, ?_, ?_, ?_, ?_, fun a ha => ?_⟩ <;> rw [haccess]
  · exact h.idle
  · exact h.resetLine
  · exact h.ibufSz
  · exact h.obufSz
  · rw [respond_ibufAt]
    rcases Nat.lt_or_ge a (4 * n) with hlt | hge
    · rw [storeIbuf_ibufAt_other u _ (.inl hlt), h.bytes a hlt]
    · obtain ⟨k, rfl⟩ : ∃ k, a = 4 * n + k := ⟨a - 4 * n, by omega⟩
      rw [storeIbuf_ibufAt_lane u _ _ (by omega), laneByte_laneWord _ _ (by omega)]

/-- The block is idle, with these bytes in IBUF and their number in IN_LEN. -/
structure InputReady (bytes : List Byte) (s : State) : Prop where
  inv : s.Inv
  idle : s.status.busy = false
  resetLine : s.resetLine = false
  inLen : s.inLen.toNat = bytes.length
  input : s.input = bytes
  fits : bytes.length ≤ s.ibufSz.bytes

theorem word_lt {n k : Nat} (h : k < wordCount n) : 4 * k < n := by
  unfold wordCount at h
  omega

theorem le_words (n : Nat) : n ≤ 4 * wordCount n := by
  unfold wordCount
  omega

theorem input_eq_of_ibufAt {s : State} {bytes : List Byte} (hlen : s.inLen.toNat = bytes.length)
    (hbytes : ∀ a, a < bytes.length → s.ibufAt a = bytes.getD a 0) : s.input = bytes := by
  refine List.ext_getElem (by rw [input_length, hlen]) fun a ha ha' => ?_
  simp [State.input, hbytes a ha', ha']

section
variable {bytes : List Byte} {s : State}

theorem wordsLoaded (hinv : s.Inv) (hidle : s.status.busy = false) (hreset : s.resetLine = false)
    (hfits : bytes.length ≤ s.ibufSz.bytes) {n : Nat} (hn : n ≤ wordCount bytes.length) :
    WordsLoaded bytes n s (accessAll ((List.range n).map (loadWord bytes)) s) := by
  induction n with
  | zero => exact ⟨hinv, hidle, hreset, rfl, rfl, fun a ha => absurd ha (by omega)⟩
  | succ n ih =>
    have hword := word_lt (show n < wordCount bytes.length from hn)
    rw [List.range_succ, List.map_append, accessAll_append]
    exact (ih (by omega)).next (by omega)

/-- R82: LOADIN leaves the input ready, and the output's capacity as it is. -/
theorem loadIn_ready (hinv : s.Inv) (hidle : s.status.busy = false) (hreset : s.resetLine = false)
    (hfits : bytes.length ≤ s.ibufSz.bytes) :
    InputReady bytes (accessAll (loadIn bytes) s) ∧ (accessAll (loadIn bytes) s).obufSz = s.obufSz := by
  have hwords := wordsLoaded hinv hidle hreset hfits (Nat.le_refl _)
  obtain ⟨-, hsize, -⟩ := bytes_bounds s.ibufSz
  rw [loadIn_eq, accessAll_append]
  generalize accessAll ((List.range (wordCount bytes.length)).map (loadWord bytes)) s = u at hwords
  have haccess := busAccess_wr_inLen_idle (BitVec.ofNat 32 bytes.length) hwords.idle
  have hlen : (BitVec.ofNat 32 bytes.length).toNat = bytes.length := by
    rw [BitVec.toNat_ofNat]
    omega
  have hinv' := busAccess_inv hwords.inv hwords.resetLine (wr 8 (BitVec.ofNat 32 bytes.length))
  show InputReady bytes (u.busAccess _) ∧ (u.busAccess _).obufSz = s.obufSz
  rw [haccess] at hinv' ⊢
  refine ⟨⟨hinv', hwords.idle, hwords.resetLine, hlen, input_eq_of_ibufAt hlen fun a ha => ?_, ?_⟩, hwords.obufSz⟩
  · exact hwords.bytes a (Nat.lt_of_lt_of_le ha (le_words _))
  · exact hwords.ibufSz.symm ▸ hfits

theorem loadIn_offset_ne_zero (hfits : bytes.length ≤ s.ibufSz.bytes) :
    ∀ a ∈ loadIn bytes, a.offset.toNat ≠ 0 := by
  obtain ⟨-, hsize, -⟩ := bytes_bounds s.ibufSz
  intro a ha
  rw [loadIn_eq] at ha
  rcases List.mem_append.1 ha with ha | ha
  · obtain ⟨k, hk, rfl⟩ := List.mem_map.1 ha
    have hword := word_lt (List.mem_range.1 hk)
    have hoffset : (windowOffset ibufWindow k).toNat = ibufWindow + 4 * k :=
      windowOffset_toNat (by decide) (by omega)
    show (windowOffset ibufWindow k).toNat ≠ 0
    rw [hoffset]
    simp only [ibufWindow]
    omega
  · rw [List.mem_singleton.1 ha]
    show (8 : BitVec 18).toNat ≠ 0
    decide

end

/-! A command that the host has run on these bytes, before and after the engine's step (40_control.md R90, R94, R96;
60_exceptions.md R196). -/

/-- RUN has written the command, which is accepted and not yet run. -/
structure CommandLoaded (i : Instr) (bytes : List Byte) (s : State) : Prop where
  accepted : Accepted s
  resetLine : s.resetLine = false
  cmd : s.cmd = encode i
  kept : s.status.dropped = false
  inLen : s.inLen.toNat = bytes.length
  input : s.input = bytes
  fits : bytes.length ≤ s.ibufSz.bytes

theorem InputReady.accept {bytes : List Byte} {s : State} (h : InputReady bytes s) {i : Instr} {w : Word}
    (hw : w = encode i) : CommandLoaded i bytes ((s.accept w).respond okWrite) :=
  ⟨⟨respond_inv (State.accept_inv w h.inv.buffers h.inv.datapath_range h.resetLine) _, rfl⟩, h.resetLine, hw, rfl,
    h.inLen, h.input, h.fits⟩

theorem InputReady.run {bytes : List Byte} {s : State} (h : InputReady bytes s) (i : Instr) :
    CommandLoaded i bytes (s.busAccess (runCommand i)) := by
  rw [runCommand, busAccess_wr_cmd_idle (encode i) h.idle]
  exact h.accept rfl

theorem CommandLoaded.withEnvironment {i : Instr} {bytes : List Byte} {s : State} (h : CommandLoaded i bytes s)
    (pending : List Input) (schedule : List Agent) (responses : List Response) :
    CommandLoaded i bytes { s with pending := pending, schedule := schedule, responses := responses } :=
  { h with accepted := ⟨inv_withEnvironment h.accepted.1 _ _ _ _, h.accepted.2⟩ }

theorem CommandLoaded.flags {i : Instr} {bytes : List Byte} {s : State} (h : CommandLoaded i bytes s) :
    s.status = { busy := true, done := false, err := false, dropped := false, errcode := 0 } := by
  obtain ⟨hdone, herr⟩ := h.accepted.1.status_legal.busy_alone h.accepted.2
  obtain ⟨-, hcode, -⟩ := cleared_of_accepted h.accepted
  calc s.status
    _ = ⟨s.status.busy, s.status.done, s.status.err, s.status.dropped, s.status.errcode⟩ := rfl
    _ = _ := by rw [h.accepted.2, hdone, herr, h.kept, hcode]

/-- The command has ended with this answer of its pure function. -/
structure CommandEnded (answer : Res (List Byte)) (i : Instr) (bytes : List Byte) (t : State) : Prop where
  idle : t.status.busy = false
  resetLine : t.resetLine = false
  cmd : t.cmd = encode i
  inLen : t.inLen.toNat = bytes.length
  input : t.input = bytes
  ok : ∀ out, answer = .ok out → t.status.word = 0x00000002 ∧ t.result = 0 ∧ t.outLen.toNat = out.length ∧
    out.length ≤ t.obufSz.bytes ∧ ∀ a (h : a < out.length), t.obufAt a = out[a]
  err : ∀ k, answer = .err k →
    t.status.word = 0x00000004 ||| (k.code.setWidth 32 <<< 8) ∧ t.outLen = 0 ∧ t.result = 0

theorem CommandEnded.withEnvironment {answer : Res (List Byte)} {i : Instr} {bytes : List Byte} {t : State}
    (h : CommandEnded answer i bytes t) (pending : List Input) (responses : List Response) :
    CommandEnded answer i bytes { t with pending := pending, responses := responses } :=
  { h with }

theorem input_of_keepsHostSide {s t : State} (h : KeepsHostSide s t) : t.input = s.input := by
  obtain ⟨-, hlen, -, -, hbytes, -⟩ := h
  rw [State.input, State.input, hlen, funext hbytes]

theorem wf_of_contract {i : Instr} {f : List Byte → Option Nat → Res (List Byte)} (hf : contractOf i = some f) :
    i.wf = true := by
  cases i with
  | enc45 | dec45 | encqr | decqr => rfl
  | nop | d2c | c2d | b2d | d2b => cases hf

/-- R24, R196: STATUS after an error. -/
theorem failed_word (k : ErrKind) :
    Status.word { busy := false, done := false, err := true, dropped := false, errcode := k.code } =
      0x00000004 ||| (k.code.setWidth 32 <<< 8) := by
  cases k <;> decide

/-- R96: the accepted command answers as its pure function does. -/
theorem CommandLoaded.meets_contract {i : Instr} {f : List Byte → Option Nat → Res (List Byte)} {bytes : List Byte}
    {s : State} (hf : contractOf i = some f) (h : CommandLoaded i bytes s) :
    (∃ out, f bytes (some s.obufSz.bytes) = .ok out ∧ SucceedsWith i out s) ∨
      (∃ k, f bytes (some s.obufSz.bytes) = .err k ∧ FailsWith i k.code s) := by
  have hmeets := exec_meets_contract hf h.accepted
  rw [h.input, h.inLen] at hmeets
  exact hmeets.resolve_left fun ⟨hlong, _⟩ => Nat.not_lt.2 h.fits hlong

theorem CommandLoaded.decode_cur {i : Instr} {bytes : List Byte} {s : State} (hwf : i.wf = true)
    (h : CommandLoaded i bytes s) : decode s.dp.cur = .legal i := by
  obtain ⟨hcur, -⟩ := h.accepted.1.busy_fetch h.accepted.2
  rw [hcur, h.cmd]
  exact decodeEncodeAgree i hwf

/-- The engine's step on the accepted command. -/
theorem CommandLoaded.ends {i : Instr} {f : List Byte → Option Nat → Res (List Byte)} {bytes : List Byte} {s : State}
    (hf : contractOf i = some f) (h : CommandLoaded i bytes s) :
    ∃ t, engineStep s = .next t ∧ t.pending = s.pending ∧ CommandEnded (f bytes (some s.obufSz.bytes)) i bytes t := by
  obtain ⟨t, ht⟩ := engineStep_next s
  have hexec : exec i s = .next t := (engineStep_legal (h.decode_cur (wf_of_contract hf))).symm.trans ht
  have hroom := (engineStep_inv h.accepted h.resetLine ht).outLen_le
  have hkept := engineStep_keepsHostSide ht
  have hinput := (input_of_keepsHostSide hkept).trans h.input
  obtain ⟨hcmd, hlen, -, -, -, hline, hpending, -⟩ := hkept
  refine ⟨t, ht, hpending, engineStep_idle ht, hline.trans h.resetLine, hcmd.trans h.cmd,
    (congrArg BitVec.toNat hlen).trans h.inLen, hinput, fun out hout => ?_, fun k hk => ?_⟩
  · rcases h.meets_contract hf with
      ⟨out', hout', t', hexec', hflags, -, -, ⟨hcount, hbytes, -⟩, hresult, -⟩ | ⟨k, hk, -⟩
    · obtain rfl := Host.Outcome.next.inj (hexec.symm.trans hexec')
      obtain rfl := Res.ok.inj (hout.symm.trans hout')
      refine ⟨?_, hresult, hcount, hcount ▸ hroom, hbytes⟩
      rw [hflags, h.flags]
      decide
    · cases hout.symm.trans hk
  · rcases h.meets_contract hf with ⟨out, hout, -⟩ | ⟨k', hk', t', hexec', ⟨hflags, houtLen, hresult⟩, -⟩
    · cases hout.symm.trans hk
    · obtain rfl := Host.Outcome.next.inj (hexec.symm.trans hexec')
      obtain rfl := Res.err.inj (hk.symm.trans hk')
      refine ⟨?_, houtLen, hresult⟩
      rw [hflags, h.flags]
      exact failed_word k

/-- WAIT finds the accepted command ended. -/
theorem WaitFinds.commandEnded {i : Instr} {f : List Byte → Option Nat → Res (List Byte)} {bytes : List Byte}
    {s u : State} (hf : contractOf i = some f) (h : CommandLoaded i bytes s) (hu : WaitFinds s u) :
    CommandEnded (f bytes (some s.obufSz.bytes)) i bytes u := by
  cases hu with
  | idle hidle => exact Bool.noConfusion (hidle.symm.trans h.accepted.2)
  | ended hstep =>
    obtain ⟨t, ht, -, hended⟩ := (h.withEnvironment _ _ _).ends hf
    obtain rfl := Host.Outcome.next.inj (hstep.symm.trans ht)
    exact hended.withEnvironment [] _

/-! READOUT (30_encoding.md R82). -/

/-- The lanes of the words from 0 on are the bytes from 0 on. -/
theorem flatMap_laneWord (byteAt : Nat → Byte) (m : Nat) :
    (((List.range m).map fun k => laneWord byteAt (4 * k)).flatMap fun w => (List.range 4).map (laneByte w)) =
      (List.range (4 * m)).map byteAt := by
  induction m with
  | zero => rfl
  | succ m ih =>
    have hlast : (List.range 4).map (laneByte (laneWord byteAt (4 * m))) =
        (List.range 4).map fun k => byteAt (4 * m + k) :=
      List.map_congr_left fun k hk => laneByte_laneWord _ _ (List.mem_range.1 hk)
    rw [List.range_succ (n := m), List.map_append, List.flatMap_append, ih, Nat.mul_succ,
      List.range_add, List.map_append, List.map_map]
    simp only [List.map_cons, List.map_nil, List.flatMap_cons, List.flatMap_nil, List.append_nil, hlast]
    rfl

/-- R82: the string of READOUT is the first bytes of OBUF. -/
theorem readOutBytes_laneWord (byteAt : Nat → Byte) (n : Nat) :
    readOutBytes n ((List.range (wordCount n)).map fun k => laneWord byteAt (4 * k)) =
      (List.range n).map byteAt := by
  rw [readOutBytes, flatMap_laneWord, ← List.map_take, List.take_range,
    Nat.min_eq_left (le_words _)]

theorem map_range_eq_of_getElem {out : List Byte} {byteAt : Nat → Byte}
    (h : ∀ a (ha : a < out.length), byteAt a = out[a]) : (List.range out.length).map byteAt = out :=
  List.ext_getElem (by simp) fun a ha ha' => by simp [h a ha']

theorem answer_of_busAccess {s u : State} {a : Access} {v : Word} (h : s.busAccess a = u.respond (okRead v)) :
    s.answer a = some v := by
  simp [State.answer, h, okRead]

theorem busAccess_rd_outLen (s : State) : s.busAccess (rd 0x0000C) = s.respond (okRead s.outLen) :=
  onlyResponds_rd_register s (x := .outLen) (by decide) (by decide) rfl

/-- R54: a word of OBUF is read while BUSY = 0. -/
theorem busAccess_rd_obufWord {s : State} (hidle : s.status.busy = false) {k : Nat} (hk : 4 * k < s.obufSz.bytes) :
    s.busAccess (rd (windowOffset obufWindow k)) = s.respond (okRead (laneWord s.obufAt (4 * k))) := by
  obtain ⟨-, hsize, -⟩ := bytes_bounds s.obufSz
  have hoffset : (windowOffset obufWindow k).toNat = obufWindow + 4 * k :=
    windowOffset_toNat (Nat.le_refl _) (by omega)
  rw [busAccess_rd_of_target (by rw [hoffset]; simp only [obufWindow]; omega) (target_obufWindow_add hoffset hk),
    readTarget_obufWord_idle _ hidle]

section
variable {s : State}

theorem hostRead_idle (hidle : s.status.busy = false) (hreset : s.resetLine = false) (hp : s.pending = [])
    {A : BitVec 18} {v : Word} (h : s.busAccess (rd A) = s.respond (okRead v)) :
    hostRead A s = some (s.respond (okRead v), v) :=
  hostRead_of_access (hostAccess_idle hp hreset hidle h)

/-- The host's reads of words of OBUF, one after the other. -/
theorem hostReads_obufWords (hidle : s.status.busy = false) (hreset : s.resetLine = false) (hp : s.pending = [])
    {words : List Nat} (hwords : ∀ k ∈ words, 4 * k < s.obufSz.bytes) :
    ∃ u, hostReads (words.map fun k => rd (windowOffset obufWindow k)) s =
      some (u, words.map fun k => laneWord s.obufAt (4 * k)) := by
  induction words generalizing s with
  | nil => exact ⟨s, rfl⟩
  | cons k rest ih =>
    obtain ⟨hk, hrest⟩ := List.forall_mem_cons.1 hwords
    have hread : hostRead (rd (windowOffset obufWindow k)).offset s = _ :=
      hostRead_idle hidle hreset hp (busAccess_rd_obufWord hidle hk)
    obtain ⟨u, hu⟩ := ih (s := s.respond (okRead (laneWord s.obufAt (4 * k)))) hidle hreset hp hrest
    refine ⟨u, ?_⟩
    rw [List.map_cons, hostReads, hread, Option.bind_some, hu]
    rfl

/-- READOUT while BUSY = 0, where OUT_LEN counts bytes of OBUF. -/
theorem hostReadOut_idle (hidle : s.status.busy = false) (hreset : s.resetLine = false) (hp : s.pending = [])
    (hlen : s.outLen.toNat ≤ s.obufSz.bytes) :
    ∃ u, hostReadOut s = some (u, (List.range s.outLen.toNat).map s.obufAt) := by
  have hread := hostRead_idle hidle hreset hp (busAccess_rd_outLen s)
  have hwords : ∀ k ∈ List.range (wordCount s.outLen.toNat), 4 * k < s.obufSz.bytes := fun k hk =>
    Nat.lt_of_lt_of_le (word_lt (List.mem_range.1 hk)) hlen
  obtain ⟨u, hu⟩ := hostReads_obufWords (s := s.respond (okRead s.outLen)) hidle hreset hp hwords
  refine ⟨u, ?_⟩
  rw [hostReadOut, hread, Option.bind_some, readOutWords, hu, Option.map_some]
  exact congrArg (fun bytes => some (u, bytes)) (readOutBytes_laneWord s.obufAt _)

/-- The words that READOUT reads, by their answers. -/
theorem answers_obufWords (hidle : s.status.busy = false) {n : Nat} (hn : n ≤ s.obufSz.bytes) :
    (readOutWords n).map (fun a => s.answer a) =
      ((List.range (wordCount n)).map fun k => laneWord s.obufAt (4 * k)).map some := by
  rw [readOutWords, List.map_map, List.map_map]
  exact List.map_congr_left fun k hk => answer_of_busAccess (busAccess_rd_obufWord hidle
    (Nat.lt_of_lt_of_le (word_lt (List.mem_range.1 hk)) hn))

end

/-- With nothing pending, the host sees the command's answer. -/
theorem CommandEnded.endsAs {answer : Res (List Byte)} {i : Instr} {bytes : List Byte} {t : State}
    (h : CommandEnded answer i bytes t) (hp : t.pending = []) : EndsAs answer i bytes t := by
  refine ⟨hp, h.cmd, h.inLen, h.input, fun out hout => ?_, h.err⟩
  obtain ⟨hword, hresult, hcount, hroom, hbytes⟩ := h.ok out hout
  have hout' := map_range_eq_of_getElem hbytes
  have hlen : t.outLen = BitVec.ofNat 32 out.length := by rw [← hcount, BitVec.ofNat_toNat, BitVec.setWidth_eq]
  obtain ⟨u, hread⟩ := hostReadOut_idle h.idle h.resetLine hp (hcount ▸ hroom)
  rw [hcount, hout'] at hread
  exact ⟨hword, hresult, hlen ▸ answer_of_busAccess (busAccess_rd_outLen t),
    ⟨_, answers_obufWords h.idle hroom, (readOutBytes_laneWord t.obufAt _).trans hout'⟩, u, hread⟩

/-! The protocol, from the pending accesses and as a program (30_encoding.md R82). -/

theorem core_run_add (M : Host.Core) {s t : M.State} {m : Nat} (h : M.run m s = .next t) (n : Nat) :
    M.run (m + n) s = M.run n t := by
  induction m generalizing s with
  | zero =>
    obtain rfl := Host.Outcome.next.inj h
    rw [Nat.zero_add]
  | succ m ih =>
    rw [Host.Core.run] at h
    rw [Nat.add_right_comm, Host.Core.run]
    cases hs : M.step s with
    | next u =>
      rw [hs] at h
      exact ih h
    | fault r | refused r =>
      rw [hs] at h
      cases h

section
variable {i : Instr} {f : List Byte → Option Nat → Res (List Byte)} {s : State} {bytes : List Byte}
  (hf : contractOf i = some f) (hinv : s.Inv) (hidle : s.status.busy = false) (hreset : s.resetLine = false)
  (hfits : bytes.length ≤ s.ibufSz.bytes)
include hf hinv hidle hreset hfits

/-- The accesses pending: each takes its step, and then the engine has one. -/
theorem run_protocol (hp : s.pending = (loadIn bytes ++ [runCommand i]).map .access) :
    ∃ t, Sys2Proof.core.run (s.pending.length + 1) s = .next t ∧ t.pending = [] ∧
      CommandEnded (f bytes (some s.obufSz.bytes)) i bytes t := by
  have hp' : s.pending = (loadIn bytes).map .access ++ [.access (runCommand i)] := by rw [hp, List.map_append]; rfl
  have hload := run_accesses (loadIn_offset_ne_zero hfits) hidle hreset hp'
  obtain ⟨hready, hobufSz⟩ := loadIn_ready (s := { s with pending := [.access (runCommand i)] })
    (inv_withEnvironment hinv _ _ _ _) hidle hreset hfits
  have hwaits := accessAll_pending (loadIn bytes) { s with pending := [.access (runCommand i)] }
  generalize accessAll (loadIn bytes) { s with pending := [.access (runCommand i)] } = u at hload hready hobufSz hwaits
  have hstep := step_access_idle hready.idle hready.resetLine hwaits
  rw [busAccess_withPending] at hstep
  have hloaded := hready.run i
  have hobufSz' := (busAccess_obufSz (runCommand i) u).trans hobufSz
  generalize u.busAccess (runCommand i) = v at hstep hloaded hobufSz'
  have hm : State.engineMoves { v with pending := [] } = true :=
    engineMoves_of_no_input hloaded.accepted.2 hloaded.resetLine rfl
  obtain ⟨t, ht, hnone, hended⟩ := (hloaded.withEnvironment [] v.schedule.tail v.responses).ends hf
  have hlast := (step_engine hm).trans ht
  refine ⟨t, ?_, hnone, hobufSz' ▸ hended⟩
  have hcount : s.pending.length + 1 = (loadIn bytes).length + (1 + 1) := by simp [hp']
  rw [hcount]
  exact (core_run_add Sys2Proof.core hload (1 + 1)).trans ((run_succ hstep 1).trans (run_succ hlast 0))

/-- As a program: WAIT's last read finds the command ended, whatever the turns. -/
theorem runProgram_protocol (hp : s.pending = []) :
    ∃ r, s.runProgram [.loadIn bytes, .run i, .wait] = some r ∧ r.machine.pending = [] ∧
      CommandEnded (f bytes (some s.obufSz.bytes)) i bytes r.machine := by
  have hload := hostWrites_idle (loadIn_offset_ne_zero hfits) hidle hreset hp
  obtain ⟨hready, hobufSz⟩ := loadIn_ready hinv hidle hreset hfits
  have hnone := (accessAll_pending (loadIn bytes) s).trans hp
  generalize accessAll (loadIn bytes) s = u at hload hready hobufSz hnone
  obtain ⟨r, haccess⟩ := hostAccess_idle_eq (runCommand i) hready.idle hready.resetLine hnone
  have hrun : hostWrites [runCommand i] u = some (u.busAccess (runCommand i)) := by
    rw [hostWrites, haccess, Option.bind_some]
    rfl
  have hloaded := hready.run i
  have hobufSz' := (busAccess_obufSz (runCommand i) u).trans hobufSz
  have hnone' := (busAccess_pending (runCommand i) u).trans hnone
  generalize u.busAccess (runCommand i) = v at hrun hloaded hobufSz' hnone'
  obtain ⟨w, hw, hwait⟩ := hostWait_finds hloaded.resetLine hnone'
  have hended := (hw.commandEnded hf hloaded).withEnvironment w.pending (w.responses ++ [okRead w.status.word])
  rw [hobufSz'] at hended
  refine ⟨⟨w.respond (okRead w.status.word), [], []⟩, ?_, hw.pending hnone', hended⟩
  simp [State.runProgram, runHostProgram, HostInstr.perform, hload, hrun, hwait]

end

/-- Settles O60: WAIT's last read finds the engine idle; LOADIN and RUN, as pending accesses or as a program, bring the
block to the accepted command, and the engine's step to the answer of its pure function. -/
theorem protocolConverts : Obligations.ProtocolConverts := by
  refine ⟨fun s hreset hp => ?_, fun i f s bytes hf hinv hidle hreset hfits => ⟨fun hp => ?_, fun hp => ?_⟩⟩
  · obtain ⟨u, hu, hwait⟩ := hostWait_finds hreset hp
    exact ⟨_, u.status.word, hwait, hu.pending hp, hu.idle_after, by simp [okRead], rfl,
      by rw [waitEnds_iff, hu.idle_after]; rfl⟩
  · obtain ⟨t, hrun, hnone, hended⟩ := run_protocol hf hinv hidle hreset hfits hp
    exact ⟨t, hrun, ⟨_, answer_of_busAccess (busAccess_rd_status t), by rw [waitEnds_iff, hended.idle]; rfl⟩,
      hended.endsAs hnone⟩
  · obtain ⟨r, hrun, hnone, hended⟩ := runProgram_protocol hf hinv hidle hreset hfits hp
    exact ⟨r, hrun, hended.endsAs hnone⟩

end Sys2Proof.Proofs
end
